-- ==== Sys2Proof/Word.lean ====
section
/-! DEFINITION. The word types of CRC32-FE (00_scope.md rule R7): unsigned bit vectors, bit 0 the least
significant.  Nothing is signed and nothing is sign-extended anywhere in this hardware. -/

namespace Sys2Proof

/-- `u8` of rule R7: a byte of the input buffer, or an operation word (rule R70). -/
abbrev U8 := BitVec 8

/-- `u32` of rule R7: the CRC state, a table entry, the capability word. -/
abbrev U32 := BitVec 32

/-- `u64` of rule R7: one multiplier operand. -/
abbrev U64 := BitVec 64

/-- `u128` of rule R7: a narrow lane, a product, a constant-ROM entry. -/
abbrev U128 := BitVec 128

/-- `u512` of rule R7: a wide lane of four 128-bit sub-lanes. -/
abbrev U512 := BitVec 512

end Sys2Proof
end

