-- ==== Sys2Proof/Config.lean ====
section
/-! DEFINITION. What an instance of CRC32-FE is configured with (the straps and open parameters of
00_scope.md rule R6, and the platform it stands on), and the free values: the values the spec leaves
unspecified after an operation (10_state.md rule R35). -/

namespace Sys2Proof.Config

/-- The strap `MIN_VEC_BYTES`, OPEN in rule R6: one of the two values the source names (rule R100 line 3). -/
inductive MinVec where
  | oneLane     -- 16 bytes: the carry-less multiply is cheap
  | eightLanes  -- 128 bytes: per-instruction latency makes short vector runs slow
  deriving DecidableEq, Repr

/-- The strap `WIDE_MIN_BYTES`: 512 in this hardware (rule R6, 90_conflicts.md C2); a model may also offer
256 (92_eei_decisions.md D10), which makes `W.INIT`'s `else` arm (rule R131) reachable. -/
inductive WideMin where
  | bytes512
  | bytes256
  deriving DecidableEq, Repr

/-- What the platform really has, as against what the host says in `HWCAP` (rules R27, R211 (c), R247). -/
structure Platform where
  /-- 128-bit vectors and the 64x64 carry-less multiply are present. -/
  nclmul : Bool
  /-- The wide carry-less multiply is present. -/
  wclmul : Bool
  /-- 512-bit vector width is present. -/
  v512 : Bool
  /-- The platform is big-endian. -/
  bigEndian : Bool
  deriving DecidableEq, Repr

/-- The configured values of one instance: constant for its life, not writable by any command (rule R29). -/
structure Straps where
  minVec : MinVec
  wideMin : WideMin
  /-- `LEN_BITS` (rule R6, D18): `none` is the default, unbounded. -/
  lenBits : Option Nat
  /-- `DEBUG_ASSERT` (rules R6, R221): no architectural effect. -/
  debugAssert : Bool
  platform : Platform
  deriving DecidableEq, Repr

/-- FREE VALUE (log entry 2): an unspecified `u32` (rule R35). Nothing constrains it; the argument is the
number of the draw. -/
opaque freeU32 : Nat → U32

/-- FREE VALUE (log entry 2): an unspecified length or position (rule R35). -/
opaque freeNat : Nat → Nat

/-- FREE VALUE (log entry 2): an unspecified 2-bit `TIER` (rule R35). -/
opaque freeTier : Nat → BitVec 2

end Sys2Proof.Config
end

