-- ==== Sys2Proof/Syntax.lean ====
section
/-! DEFINITION. The operations of CRC32-FE: one constructor per row of spec/opcode_table.json (30_encoding.md
rule R73), and the explicit operands of `UPDATE` (rules R74, R191).  No operation word has an operand
field (rule R74), so no constructor has an argument. -/

namespace Sys2Proof

/-- The sixteen sequencer operations (format S) and the eight multiplier commands (format M) of rule R73. -/
inductive Instr where
  | update     -- UPDATE, rule R191; the word 0x00 is also the idle condition IDLE
  | probe      -- PROBE, rule R101
  | sbyte      -- SBYTE, rule R91
  | done       -- DONE, rule R192
  | wInit      -- W.INIT, rule R131
  | wFold4     -- W.FOLD4, rule R132
  | wCollapse  -- W.COLLAPSE, rule R133
  | wFold1     -- W.FOLD1, rule R134
  | wHred      -- W.HRED, rule R135
  | nInit4     -- N.INIT4, rule R151
  | nFold4     -- N.FOLD4, rule R152
  | nCollapse  -- N.COLLAPSE, rule R153
  | nInit1     -- N.INIT1, rule R154
  | nFold1     -- N.FOLD1, rule R155
  | rFold64    -- R.FOLD64, rule R171
  | rBarrett   -- R.BARRETT, rule R172
  | clmulLL    -- CLMUL.LL, rule R112
  | clmulHL    -- CLMUL.HL, rule R113
  | clmulLH    -- CLMUL.LH, rule R114
  | clmulHH    -- CLMUL.HH, rule R115
  | vclmulLL   -- VCLMUL.LL, rule R116
  | vclmulHL   -- VCLMUL.HL, rule R117
  | vclmulLH   -- VCLMUL.LH, rule R118
  | vclmulHH   -- VCLMUL.HH, rule R119
  deriving DecidableEq, Repr

/-- The operands of a host command, `UPDATE crc_in, data, hwcap` (rules R74, R191): the bytes of `data` stand in
the input buffer (`State.mem`), so a command carries their number. -/
structure Command where
  crcIn : U32
  len : Nat
  hwcap : U32
  deriving DecidableEq, Repr

/-- The two operation formats (rules R71, R72). -/
inductive Format where
  | s  -- sequencer operation
  | m  -- multiplier command
  deriving DecidableEq, Repr

/-- The format column of rule R73. -/
def Instr.format : Instr → Format
  | .update | .probe | .sbyte | .done => .s
  | .wInit | .wFold4 | .wCollapse | .wFold1 | .wHred => .s
  | .nInit4 | .nFold4 | .nCollapse | .nInit1 | .nFold1 => .s
  | .rFold64 | .rBarrett => .s
  | .clmulLL | .clmulHL | .clmulLH | .clmulHH => .m
  | .vclmulLL | .vclmulHL | .vclmulLH | .vclmulHH => .m

end Sys2Proof
end

