-- ==== Sys2Proof/WellFormed.lean ====
section
/-! DEFINITION. Which terms of Syntax.lean are well formed.  An operation has no operand fields (30_encoding.md
rule R74) and decodes the same way in every state (rule R77), so every `Instr` is well formed; a host command is well
formed when its length fits the length counters (00_scope.md rule R6 `LEN_BITS`, 92_eei_decisions.md D18). -/

namespace Sys2Proof

/-- Every operation term is well formed: there is no field that could hold a bad value (rule R74). -/
def Instr.wf (_ : Instr) : Bool := true

/-- `len` fits counters of `bits` bits; unbounded counters (`none`, the default) hold every length (D18). -/
def lenFits (bits : Option Nat) (len : Nat) : Bool :=
  match bits with
  | none => true
  | some n => decide (len < 2 ^ n)

/-- The host may present this command to an instance whose length counters have `bits` bits (D18): every `crc_in`
and every `hwcap` is legal (rules R21, R27), so only the length is checked. -/
def Command.wf (bits : Option Nat) (c : Command) : Bool := lenFits bits c.len

end Sys2Proof
end

