-- ==== Sys2Proof/Decode.lean ====
section
/-! DEFINITION. The operation word (30_encoding.md rules R70 to R73, R76): decoding of any bytes, rejecting reserved
words by name, and the encoder written from the same tables. -/

namespace Sys2Proof

/-! ### Fields of the operation word -/

/-- `W[7:5]`, the class (rule R70). -/
def fieldClass (w : U8) : BitVec 3 := w.extractLsb' 5 3

/-- `W[4:0]`, `opc` of format S (rule R71). -/
def fieldOpc (w : U8) : BitVec 5 := w.extractLsb' 0 5

/-- `W[4:3]`, `zero` of format M (rule R72). -/
def fieldZero (w : U8) : BitVec 2 := w.extractLsb' 3 2

/-- `W[2]`, `w` of format M: 512-bit form (rule R72). -/
def fieldWide (w : U8) : Bool := w.getLsbD 2

/-- `W[1]`, `b` of format M: the high half of operand B (rule R72). -/
def fieldB (w : U8) : Bool := w.getLsbD 1

/-- `W[0]`, `a` of format M: the high half of operand A (rule R72). -/
def fieldA (w : U8) : Bool := w.getLsbD 0

/-! ### Decoding -/

/-- Why a word is no operation (rule R76). -/
inductive DecodeError where
  | noByte         -- there is no byte to decode
  | reservedClass  -- classes 2 to 7, the words 0x40 to 0xFF
  | reservedZero   -- format M with field `zero` not 0b00, the words 0x28 to 0x3F
  | reservedCode   -- format S with an unassigned `opc`
  deriving DecidableEq, Repr

/-- Format S: the sixteen assigned codes of rule R73; every other code is reserved (rule R76). -/
def decodeS (opc : BitVec 5) : Except DecodeError Instr :=
  match opc.toNat with
  | 0x00 => .ok .update
  | 0x01 => .ok .probe
  | 0x02 => .ok .sbyte
  | 0x03 => .ok .done
  | 0x08 => .ok .wInit
  | 0x09 => .ok .wFold4
  | 0x0A => .ok .wCollapse
  | 0x0B => .ok .wFold1
  | 0x0C => .ok .wHred
  | 0x10 => .ok .nInit4
  | 0x11 => .ok .nFold4
  | 0x12 => .ok .nCollapse
  | 0x13 => .ok .nInit1
  | 0x14 => .ok .nFold1
  | 0x18 => .ok .rFold64
  | 0x19 => .ok .rBarrett
  | _ => .error .reservedCode

/-- Format M (rule R72): the width bit and the two half selectors; the first suffix letter is `a`, the second `b`. -/
def decodeM (wide b a : Bool) : Instr :=
  match wide, a, b with
  | false, false, false => .clmulLL
  | false, true, false => .clmulHL
  | false, false, true => .clmulLH
  | false, true, true => .clmulHH
  | true, false, false => .vclmulLL
  | true, true, false => .vclmulHL
  | true, false, true => .vclmulLH
  | true, true, true => .vclmulHH

/-- Decoding of one operation word (rules R70, R73, R76). -/
def decodeWord (w : U8) : Except DecodeError Instr :=
  match (fieldClass w).toNat with
  | 0 => decodeS (fieldOpc w)
  | 1 => if fieldZero w = 0#2 then .ok (decodeM (fieldWide w) (fieldB w) (fieldA w)) else .error .reservedZero
  | _ => .error .reservedClass

/-- Decoding of a byte string: one word, and the bytes that follow it (rule R70: one length, no prefix). -/
def decode : List U8 → Except DecodeError (Instr × List U8)
  | [] => .error .noByte
  | w :: rest =>
    match decodeWord w with
    | .ok i => .ok (i, rest)
    | .error e => .error e

/-! ### Encoding -/

/-- A format-S word: class `0b000`, then `opc` (rule R71). -/
def formatS (opc : BitVec 5) : U8 := 0b000#3 ++ opc

/-- A format-M word: class `0b001`, `zero`, `w`, `b`, `a` (rule R72). -/
def formatM (wide b a : Bool) : U8 := 0b001#3 ++ 0b00#2 ++ BitVec.ofBool wide ++ BitVec.ofBool b ++ BitVec.ofBool a

/-- The word of each operation (rule R73). -/
def encodeWord : Instr → U8
  | .update => formatS 0x00
  | .probe => formatS 0x01
  | .sbyte => formatS 0x02
  | .done => formatS 0x03
  | .wInit => formatS 0x08
  | .wFold4 => formatS 0x09
  | .wCollapse => formatS 0x0A
  | .wFold1 => formatS 0x0B
  | .wHred => formatS 0x0C
  | .nInit4 => formatS 0x10
  | .nFold4 => formatS 0x11
  | .nCollapse => formatS 0x12
  | .nInit1 => formatS 0x13
  | .nFold1 => formatS 0x14
  | .rFold64 => formatS 0x18
  | .rBarrett => formatS 0x19
  | .clmulLL => formatM false false false
  | .clmulHL => formatM false false true
  | .clmulLH => formatM false true false
  | .clmulHH => formatM false true true
  | .vclmulLL => formatM true false false
  | .vclmulHL => formatM true false true
  | .vclmulLH => formatM true true false
  | .vclmulHH => formatM true true true

/-- The bytes of an operation: one word (rule R70). -/
def encode (i : Instr) : List U8 := [encodeWord i]

/-- The value `OP` holds for a sequencer operation: `opc`, class 0 implied (rules R25, R70 (a)). -/
def Instr.code (i : Instr) : BitVec 5 := fieldOpc (encodeWord i)

/-! ### The host's reading of an opcode-table row -/

/-- The bytes of a word of `nbits` bits, the least significant first; an operation is one byte long (rule R70), so at
least one byte is laid out. -/
def bytesOfTableWord (nbits w : Nat) : List U8 :=
  (List.range (max 1 ((nbits + 7) / 8))).map fun k => BitVec.ofNat 8 (w / 2 ^ (8 * k))

/-- The operation the decoder reads from a table word. -/
def decodeTableWord (nbits w : Nat) : Option Instr :=
  match decode (bytesOfTableWord nbits w) with
  | .ok (i, _) => some i
  | .error _ => none

end Sys2Proof
end

