-- ==== Sys2Proof/Machine/State.lean ====
section
/-! DEFINITION. The state of one CRC32-FE instance (10_state.md rule R20) as plain data, the reasons a step can stop,
and the state after reset (rules R35, R230). -/

namespace Sys2Proof.Machine

/-- The input buffer as (offset, byte) pairs (20_memory.md rule R51): offsets strictly rising, no byte `0x00` listed. -/
abbrev Memory := List Host.Cell

/-- One accumulator with its validity mark (rule R23): *unwritten*, or *valid* with a value. -/
inductive Acc (w : Nat) where
  | unwritten
  | valid (v : BitVec w)
  deriving DecidableEq, Repr

/-- A register file of four accumulators (rule R22). -/
structure AccFile (w : Nat) where
  r0 : Acc w
  r1 : Acc w
  r2 : Acc w
  r3 : Acc w
  deriving DecidableEq, Repr

/-- The name of an accumulator: `X[i]` or `Z[i]` (rule R22). -/
inductive AccName where
  | x (i : Fin 4)
  | z (i : Fin 4)
  deriving DecidableEq, Repr

/-- The multiplier's command port (rule R70 (b)): the word presented on it, the operand pair of either width and the
product.  MODEL'S OWN FIELDS (log entry 7): the spec's multiplier has no state and its operands and result are locals of the
operation that issues the command (rules R110, R112).  A word presented here is executed as part of the next step, never as a
step of its own (rule R190). -/
structure MulPort where
  word : Option U8
  a128 : U128
  b128 : U128
  dst128 : U128
  a512 : U512
  b512 : U512
  dst512 : U512
  deriving DecidableEq, Repr

/-- The machine's state. -/
structure State where
  /-- `CRC`, the running value (rule R21). -/
  crc : U32
  /-- `X[0..3]`, the narrow accumulator file (rules R22, R23). -/
  x : AccFile 128
  /-- `Z[0..3]`, the wide accumulator file (rules R22, R23). -/
  z : AccFile 512
  /-- `POS`, the offset of the next byte to read (rule R24). -/
  pos : Nat
  /-- `REM`, the number of bytes not yet read (rule R24). -/
  rem : Nat
  /-- `OP`, the code of the next operation (rule R25): this hardware's program counter. -/
  op : BitVec 5
  /-- `TIER`, two bits (rule R28). -/
  tier : BitVec 2
  /-- `HWCAP`, the capability word of the command (rule R27). -/
  hwcap : U32
  /-- `LEN`, the length of the command's buffer (rule R29). -/
  len : Nat
  /-- `CRC_OUT`, the result the host reads (rule R29). -/
  crcOut : U32
  /-- The straps and parameters of the instance (rules R6, R29, R36): read only. -/
  straps : Config.Straps
  /-- The input buffer's bytes (rules R36, R51): the host's, never written by the engine. -/
  mem : Memory
  /-- The command the host presents, if any (rules R74, R191). -/
  host : Option Command
  /-- The multiplier's command port. MODEL'S OWN FIELD (log entry 7). -/
  mul : MulPort
  /-- How many free values have been drawn. MODEL'S OWN FIELD (log entry 2). -/
  draws : Nat
  deriving DecidableEq, Repr

/-- Why the machine stops with a fault. -/
inductive Fault where
  /-- An operation whose rule reads an accumulator found it unwritten (rules R23, R211 (d), U3). Raised by the operations that
  read `X` or `Z`. Safe: the spec gives the read no value, and the state is unreachable through `UPDATE`. -/
  | unwrittenAccumulator (r : AccName)
  deriving DecidableEq, Repr

/-- The precondition an operation found violated (rule R211). -/
inductive Violation where
  /-- (a): a `W.*`, `N.*` or `R.*` operation with `TIER = None`. -/
  | tierNone
  /-- (c): the platform lacks the feature the operation or command needs (also rule R247). -/
  | featureAbsent
  /-- (b): a load with `REM` below what the operation's rule requires. -/
  | bufferShort
  /-- (b), rule R56: a read that would pass offset `LEN - 1` although `REM` would allow it. -/
  | readPastEnd
  /-- `DONE` with `REM` not 0 (rule R192). -/
  | bytesLeft
  deriving DecidableEq, Repr

/-- Why the machine gives no meaning to a step. -/
inductive Refusal where
  /-- An operation that has no meaning in the model yet. Raised by `exec` alone. Safe. -/
  | notModelled (mnemonic : String)
  /-- `OP` holds a reserved code, or a reserved word stands on the multiplier's port (rule R76, U11). Raised by `step`. Safe: the spec
  asks a model to refuse. -/
  | reservedWord (w : U8) (why : DecodeError)
  /-- The word on the multiplier's port is a sequencer operation's: the port takes multiplier commands only (rule R70 (b)), and what a
  class-0 word does there the spec does not say (DESIGN CHOICE, log entry 7). Raised by `step`. Safe. -/
  | notMultiplierCommand (w : U8)
  /-- `TIER` holds the reserved code `0b11` (rule R28, U11). Raised by every operation that runs after `PROBE`. Safe: the spec asks
  a model to refuse, and no operation leaves that code there for them. -/
  | reservedTier
  /-- A precondition violation, which "is undefined and must be prevented, not handled" (rule R211, U1). Raised by the operation
  whose rule states the precondition. Safe: the spec asks a model to refuse. -/
  | preconditionViolation (why : Violation)
  /-- `UPDATE` with `OP` not `IDLE` (rule R191, U14): the interface does not accept the command. Raised by `execUpdate` called in such
  a state; `step` never does. Safe. -/
  | commandWhileBusy
  /-- A command whose length does not fit the `LEN_BITS` of the instance (D18): the host must not present it. Raised by
  `UPDATE`. Safe. -/
  | lengthTooWide
  deriving DecidableEq, Repr

/-- The state right after reset (rules R35, R230): `OP` is `IDLE` and every accumulator is unwritten, as the spec states; the registers
the spec leaves unspecified hold zero (DESIGN CHOICE, log entry 1); the straps are those of log entry 3; no command is presented
and no buffer byte is listed. -/
def State.reset : State where
  crc := 0
  x := ⟨.unwritten, .unwritten, .unwritten, .unwritten⟩
  z := ⟨.unwritten, .unwritten, .unwritten, .unwritten⟩
  pos := 0
  rem := 0
  op := 0
  tier := 0
  hwcap := 0
  len := 0
  crcOut := 0
  straps := ⟨.oneLane, .bytes512, none, false, ⟨true, true, true, false⟩⟩
  mem := []
  host := none
  mul := ⟨none, 0, 0, 0, 0, 0, 0⟩
  draws := 0

end Sys2Proof.Machine
end

