-- ==== Sys2Proof/Machine/Ops.lean ====
section
/-! DEFINITION. The named operations over memory and registers, and the preconditions every meaning tests with them.

Taking an exception: this hardware has none to take.  It "raises no synchronous exception" (60_exceptions.md rule R210), has no
interrupts (R212), no trap entry (R214) and no trap return (R215), one mode and no privilege (R217); so there is no operation here that
saves a pc or a status, and none that restores one.  A precondition violation is not an exception: it is undefined, and a model
refuses it (R211). -/

namespace Sys2Proof.Machine

open Config (Straps Platform MinVec WideMin)

/-- The three outcomes, with this machine's reasons. -/
abbrev Result (α : Type) := Host.Outcome α Fault Refusal

/-! ### Bit fields (00_scope.md rules R7, R8, R10) -/

/-- Which half of a u128 a multiplier operand is (rule R72: `L` = 0, `H` = 1). -/
inductive Half where
  | lo
  | hi
  deriving DecidableEq, Repr

/-- `A.lo = A[63:0]`, `A.hi = A[127:64]` (rule R7). -/
def half : Half → U128 → U64
  | .lo, v => v.extractLsb' 0 64
  | .hi, v => v.extractLsb' 64 64

/-- `pair(lo, hi) = {hi, lo}` (rule R7). -/
def pair (lo hi : U64) : U128 := hi ++ lo

/-- `Z.lane[j] = Z[128*j+127 : 128*j]` (rule R7). -/
def lane (v : U512) (j : Nat) : U128 := v.extractLsb' (128 * j) 128

/-- The u512 with the four given sub-lanes, sub-lane 0 in the least significant place (rule R7). -/
def joinLanes (l0 l1 l2 l3 : U128) : U512 := l3 ++ l2 ++ l1 ++ l0

/-- `bcast(K)`: all four sub-lanes equal to `K` (rule R10). -/
def bcast (k : U128) : U512 := joinLanes k k k k

/-- `srl_bytes(A, n) = A >> (8*n)` as a u128 (rule R8). -/
def srlBytes (v : U128) (n : Nat) : U128 := v >>> (8 * n)

/-- The 16 bytes of a u128, least significant first: `le16` of 42_clmul.md rule R124. -/
def le16 (v : U128) : List U8 := (List.range 16).map fun i => v.extractLsb' (8 * i) 8

/-- The 64 bytes of a u512, least significant first (43_wide_fold.md rule R136: "its 64 bytes"). -/
def le64 (v : U512) : List U8 := (List.range 64).map fun i => v.extractLsb' (8 * i) 8

/-! ### The input buffer (20_memory.md rules R50, R51, R53) -/

/-- The byte at an offset. An offset that is not listed holds `0x00`: the list leaves zero bytes out (log entry 5). -/
def Memory.read : Memory → Nat → U8
  | [], _ => 0
  | c :: m, a => if c.1 = a then c.2 else Memory.read m a

/-- The canonical form: offsets strictly rising, no zero byte listed. -/
abbrev Memory.wf (m : Memory) : Prop :=
  m.Pairwise (fun c d => c.1 < d.1) ∧ ∀ c ∈ m, c.2 ≠ 0

/-- The host puts one byte in the buffer (the engine never writes it, rule R58); keeps the canonical form. -/
def Memory.write : Memory → Nat → U8 → Memory
  | [], a, b => if b = 0 then [] else [(a, b)]
  | c :: m, a, b =>
    if a < c.1 then (if b = 0 then c :: m else (a, b) :: c :: m)
    else if a = c.1 then (if b = 0 then m else (a, b) :: m)
    else c :: Memory.write m a b

/-- The buffer that holds the given bytes from offset `a` on. -/
def Memory.ofBytes : Nat → List U8 → Memory
  | _, [] => []
  | a, b :: bs => if b = 0 then Memory.ofBytes (a + 1) bs else (a, b) :: Memory.ofBytes (a + 1) bs

/-- The bytes at offsets `a .. a+n-1`, in increasing order: the byte string `B[a .. a+n-1]` of rule R136. -/
def Memory.bytes (m : Memory) (a : Nat) : Nat → List U8
  | 0 => []
  | n + 1 => m.read a :: Memory.bytes m (a + 1) n

/-- Little-endian assembly of `n` bytes as a value of width `w`: the byte at the lowest offset is the least significant
(rule R53). The one place where the byte order is decided. -/
def Memory.assemble (w : Nat) (m : Memory) (a : Nat) : Nat → BitVec w
  | 0 => 0
  | n + 1 => (Memory.assemble w m (a + 1) n) <<< 8 ||| (m.read a).setWidth w

/-- `MemRead(a, 1)` (rules R10, R53). -/
def memRead1 (s : State) (a : Nat) : U8 := s.mem.assemble 8 a 1

/-- `MemRead(a, 16)` (rules R10, R53). -/
def memRead16 (s : State) (a : Nat) : U128 := s.mem.assemble 128 a 16

/-- `MemRead(a, 64)` (rules R10, R53). -/
def memRead64 (s : State) (a : Nat) : U512 := s.mem.assemble 512 a 64

/-! ### Registers -/

/-- All four accumulators of a file unwritten (rule R23). -/
def AccFile.cleared (w : Nat) : AccFile w := ⟨.unwritten, .unwritten, .unwritten, .unwritten⟩

/-- `CRC <- v`. -/
def State.setCrc (s : State) (v : U32) : State := { s with crc := v }

/-- `OP <- name`: the next operation (rules R10, R25). -/
def State.goto (s : State) (i : Instr) : State := { s with op := i.code }

/-- `TIER <- v`. -/
def State.setTier (s : State) (v : BitVec 2) : State := { s with tier := v }

/-- `POS <- POS + n; REM <- REM - n` (rule R24). -/
def State.advance (s : State) (n : Nat) : State := { s with pos := s.pos + n, rem := s.rem - n }

/-- `X[0] <- v`: valid from here on (rule R23). -/
def State.writeX0 (s : State) (v : U128) : State := { s with x := { s.x with r0 := .valid v } }

/-- `X[0..3] <- ...`. -/
def State.writeX (s : State) (v0 v1 v2 v3 : U128) : State :=
  { s with x := ⟨.valid v0, .valid v1, .valid v2, .valid v3⟩ }

/-- `Z[0] <- v`. -/
def State.writeZ0 (s : State) (v : U512) : State := { s with z := { s.z with r0 := .valid v } }

/-- `Z[0..3] <- ...`. -/
def State.writeZ (s : State) (v0 v1 v2 v3 : U512) : State :=
  { s with z := ⟨.valid v0, .valid v1, .valid v2, .valid v3⟩ }

/-- `X[0..3], Z[0..3] <- unwritten` (rule R23). -/
def State.invalidate (s : State) : State := { s with x := .cleared 128, z := .cleared 512 }

/-- The multiplier's command leaves its port. -/
def State.takeMulWord (s : State) : State := { s with mul := { s.mul with word := none } }

/-- The 128-bit product appears at the multiplier's port. -/
def State.setDst128 (s : State) (v : U128) : State := { s with mul := { s.mul with dst128 := v } }

/-- The 512-bit product appears at the multiplier's port. -/
def State.setDst512 (s : State) (v : U512) : State := { s with mul := { s.mul with dst512 := v } }

/-! ### Unspecified values (rule R35; log entry 2) -/

/-- A free length or position that the instance's counters can hold (rule R6 `LEN_BITS`). -/
def freeLen (bits : Option Nat) (k : Nat) : Nat :=
  match bits with
  | none => Config.freeNat k
  | some n => Config.freeNat k % 2 ^ n

/-- What `UPDATE` leaves unspecified: `CRC_OUT` and `TIER` (rule R35, middle column). -/
def State.forgetResult (s : State) : State :=
  { s with crcOut := Config.freeU32 s.draws, tier := Config.freeTier (s.draws + 1), draws := s.draws + 2 }

/-- What `DONE` leaves unspecified: `POS`, `REM`, `LEN`, `HWCAP` and `TIER` (rules R35, R192). -/
def State.forgetCommand (s : State) : State :=
  { s with
    pos := freeLen s.straps.lenBits s.draws
    rem := freeLen s.straps.lenBits (s.draws + 1)
    len := freeLen s.straps.lenBits (s.draws + 2)
    hwcap := Config.freeU32 (s.draws + 3)
    tier := Config.freeTier (s.draws + 4)
    draws := s.draws + 5 }

/-! ### Preconditions (60_exceptions.md rule R211; the order of the tests is log entry 8) -/

/-- What a vector operation or a multiplier command needs the platform to have (rules R211 (c), R247). -/
inductive Feature where
  | narrowMultiply  -- a `CLMUL` command
  | wideMultiply    -- a `VCLMUL` command
  | narrowLanes     -- an `N.*` or `R.*` operation: `CLMUL` on a little-endian platform
  | wideLanes       -- a `W.*` operation: `VCLMUL` on a little-endian platform
  deriving DecidableEq, Repr

/-- Whether the platform has it: the narrow feature is `NCLMUL`, the wide one `WCLMUL & V512` (rule R27), and lanes need little-endian
byte order (rules R52, R247). -/
def hasFeature (p : Platform) : Feature → Bool
  | .narrowMultiply => p.nclmul
  | .wideMultiply => p.wclmul && p.v512
  | .narrowLanes => p.nclmul && !p.bigEndian
  | .wideLanes => p.wclmul && p.v512 && !p.bigEndian

/-- `TIER` holds no reserved code (rule R28, U11). -/
def needLegalTier (s : State) (k : Result State) : Result State :=
  if s.tier = 0b11#2 then .refused .reservedTier else k

/-- `TIER` is a vector tier (rule R211 (a)). -/
def needVectorTier (s : State) (k : Result State) : Result State :=
  needLegalTier s (if s.tier = 0b00#2 then .refused (.preconditionViolation .tierNone) else k)

/-- The platform has the feature (rule R211 (c)). -/
def needFeature (s : State) (f : Feature) (k : Result State) : Result State :=
  if hasFeature s.straps.platform f = true then k else .refused (.preconditionViolation .featureAbsent)

/-- `REM >= need`, and the `n` bytes from `POS` on lie inside the buffer (rules R56, R211 (b)). -/
def needBytes (s : State) (need n : Nat) (k : Result State) : Result State :=
  if s.rem < need then .refused (.preconditionViolation .bufferShort)
  else if s.len < s.pos + n then .refused (.preconditionViolation .readPastEnd)
  else k

/-- The value of an accumulator; reading an unwritten one is a fault (rule R23). -/
def needAcc {w : Nat} (r : AccName) (a : Acc w) (k : BitVec w → Result State) : Result State :=
  match a with
  | .valid v => k v
  | .unwritten => .fault (.unwrittenAccumulator r)

/-- `X[0]` is valid. -/
def needX0 (s : State) (k : U128 → Result State) : Result State := needAcc (.x 0) s.x.r0 k

/-- `Z[0]` is valid. -/
def needZ0 (s : State) (k : U512 → Result State) : Result State := needAcc (.z 0) s.z.r0 k

/-- All of `X[0..3]` are valid. -/
def needX (s : State) (k : U128 → U128 → U128 → U128 → Result State) : Result State :=
  needAcc (.x 0) s.x.r0 fun a => needAcc (.x 1) s.x.r1 fun b => needAcc (.x 2) s.x.r2 fun c =>
    needAcc (.x 3) s.x.r3 fun d => k a b c d

/-- All of `Z[0..3]` are valid. -/
def needZ (s : State) (k : U512 → U512 → U512 → U512 → Result State) : Result State :=
  needAcc (.z 0) s.z.r0 fun a => needAcc (.z 1) s.z.r1 fun b => needAcc (.z 2) s.z.r2 fun c =>
    needAcc (.z 3) s.z.r3 fun d => k a b c d

/-! ### What the host does (46_orchestrator.md rules R191, R204; 70_reset_and_hazards.md rule R230) -/

/-- The host presents `UPDATE crc_in, data, hwcap`: the bytes of `data` become the input buffer and the command waits to be accepted.  While
`OP` is not `IDLE` "the interface does not accept it" (rule R191, U14): nothing changes, and the buffer of the running command stays
as it is (rules R61, R245). -/
def State.present (s : State) (crcIn : U32) (data : List U8) (hwcap : U32) : State :=
  if s.op = Instr.code .update then
    { s with mem := Memory.ofBytes 0 data, host := some ⟨crcIn, data.length, hwcap⟩ }
  else s

/-- A platform reset of a running instance (rule R230): `IDLE`, every accumulator unwritten, the straps kept, every other register
unspecified. It abandons the command; a host that still wants it presents it again. -/
def State.platformReset (s : State) : State :=
  ({ s with crc := Config.freeU32 s.draws, draws := s.draws + 1 } : State).forgetResult.forgetCommand.invalidate.takeMulWord.goto .update

end Sys2Proof.Machine
end

