-- ==== Sys2Proof/Machine/Operands.lean ====
section
/-! DEFINITION. What the operations' operands are made of: the carry-less multiplier (42_clmul.md), the constant ROM
(10_state.md rule R30), the table ROM (40_scalar.md rule R90), the fields of `HWCAP` (10_state.md rule R27) and the values of the straps
(00_scope.md rule R6). -/

namespace Sys2Proof.Machine

open Config (Straps MinVec WideMin)

/-! ### The carry-less product (rule R110) -/

/-- The XOR of `zext_128(a) << i` over the `i < n` with `b[i] = 1`. -/
def clmulUpTo (a b : U64) : Nat → U128
  | 0 => 0
  | n + 1 => clmulUpTo a b n ^^^ (if b.getLsbD n = true then (a.setWidth 128) <<< n else 0)

/-- `clmul64(a, b)` (rule R110). -/
def clmul64 (a b : U64) : U128 := clmulUpTo a b 64

/-- The 128-bit command `CLMUL` with its half selectors (rules R72, R112 to R115). -/
def clmul (ha hb : Half) (a b : U128) : U128 := clmul64 (half ha a) (half hb b)

/-- The 512-bit command `VCLMUL`: four independent products, one per sub-lane (rules R116 to R119). -/
def vclmul (ha hb : Half) (a b : U512) : U512 :=
  joinLanes (clmul ha hb (lane a 0) (lane b 0)) (clmul ha hb (lane a 1) (lane b 1))
    (clmul ha hb (lane a 2) (lane b 2)) (clmul ha hb (lane a 3) (lane b 3))

/-- `fold128(acc, data, K)` (rule R120). -/
def fold128 (acc data k : U128) : U128 := clmul .lo .lo acc k ^^^ clmul .hi .hi acc k ^^^ data

/-- `fold512(acc, data, K)` (rule R121). -/
def fold512 (acc data : U512) (k : U128) : U512 :=
  vclmul .lo .lo acc (bcast k) ^^^ vclmul .hi .hi acc (bcast k) ^^^ data

/-! ### The constant ROM (rule R30) -/

/-- `ROM[k]`, as the literals of rule R30; the formulas they come from are `foldConst`, `polyReflected` and `barrettMu` below. -/
def rom : Fin 6 → U128
  | 0 => pair 0x000000011542778A 0x00000001322D1430
  | 1 => pair 0x0000000154442BD4 0x00000001C6E41596
  | 2 => pair 0x00000001751997D0 0x00000000CCAA009E
  | 3 => pair 0x0000000163CD6124 0x0000000000000000
  | 4 => pair 0x00000001DB710641 0x00000001F7011641
  | 5 => pair 0x00000000FFFFFFFF 0x00000000FFFFFFFF

/-- The generator polynomial `P` in normal order without its x^32 term (rule R2). -/
def polyNormal : U32 := 0x04C11DB7

/-- Multiplication by x modulo `P`, in normal order (rule R9). -/
def mulX (r : U32) : U32 := if r.getLsbD 31 = true then (r <<< 1) ^^^ polyNormal else r <<< 1

/-- `x^n mod P` in normal order, times the polynomial `r` (rule R9). -/
def xPowTimes : Nat → U32 → U32
  | 0, r => r
  | n + 1, r => xPowTimes n (mulX r)

/-- `x^n mod P` in normal order (rule R9). -/
def xPowMod (n : Nat) : U32 := xPowTimes n 1

/-- `K(n) = bitrev_32(x^n mod P) << 1` (rules R30, R122). -/
def foldConst (n : Nat) : U64 := ((xPowMod n).reverse.setWidth 64) <<< 1

/-- The fold constant pair of distance `d` bits: `pair(K(d + 32), K(d - 32))` (rule R122). -/
def foldPair (d : Nat) : U128 := pair (foldConst (d + 32)) (foldConst (d - 32))

/-! ### The table ROM (rule R90) -/

/-- The reflected generator polynomial (rule R2). -/
def polyReflected : U32 := 0xEDB88320

/-- One single-bit step of the table's construction (rule R90). -/
def bitStep (r : U32) : U32 := if r.getLsbD 0 = true then (r >>> 1) ^^^ polyReflected else r >>> 1

/-- `n` single-bit steps. -/
def bitSteps : Nat → U32 → U32
  | 0, r => r
  | n + 1, r => bitSteps n (bitStep r)

/-- `T[i]` (rules R31, R90). -/
def table (i : U8) : U32 := bitSteps 8 (i.setWidth 32)

/-! ### The scalar function (rules R91, R92) -/

/-- The data step of `SBYTE`: `T[(crc ^ zext_32(b))[7:0]] ^ (crc >> 8)`. -/
def crcStep (c : U32) (b : U8) : U32 := table ((c ^^^ b.setWidth 32).setWidth 8) ^^^ (c >>> 8)

/-- `scalar(crc, data)` (rule R92). -/
def scalar : U32 → List U8 → U32
  | c, [] => c
  | c, b :: rest => scalar (crcStep c b) rest

/-- `V(X) = scalar(0, le16(X))` (rule R124). -/
def laneCrc (v : U128) : U32 := scalar 0 (le16 v)

/-! ### The reduction pipeline (45_reduce.md) -/

/-- `y` of rule R171: `srl_bytes(x, 8) ^ CLMUL.LH(x, ROM[2])`. -/
def foldTo96 (v : U128) : U128 := srlBytes v 8 ^^^ clmul .lo .hi v (rom 2)

/-- The new `X[0]` of `R.FOLD64` (rule R171). -/
def foldTo64 (v : U128) : U128 :=
  clmul .lo .lo (foldTo96 v &&& rom 5) (rom 3) ^^^ srlBytes (foldTo96 v) 4

/-- `t1` of rule R172, the quotient estimate: `CLMUL.LH(x & ROM[5], ROM[4])`. -/
def barrettQuotient (v : U128) : U128 := clmul .lo .hi (v &&& rom 5) (rom 4)

/-- The new `X[0]` of `R.BARRETT` (rule R172). -/
def barrett (v : U128) : U128 := v ^^^ clmul .lo .lo (barrettQuotient v &&& rom 5) (rom 4)

/-- The 32-bit lane that becomes `CRC`: `x[63:32]` (rule R172). -/
def resultLane (v : U128) : U32 := v.extractLsb' 32 32

/-! ### The capability word (rule R27) -/

/-- `HWCAP.NCLMUL`, bit 0. -/
def capNclmul (h : U32) : Bool := h.getLsbD 0

/-- `HWCAP.WCLMUL`, bit 1. -/
def capWclmul (h : U32) : Bool := h.getLsbD 1

/-- `HWCAP.V512`, bit 2. -/
def capV512 (h : U32) : Bool := h.getLsbD 2

/-- `HWCAP.BE`, bit 3. -/
def capBe (h : U32) : Bool := h.getLsbD 3

/-! ### The straps (rule R6) -/

/-- `MIN_VEC_BYTES`. -/
def minVecBytes : MinVec → Nat
  | .oneLane => 16
  | .eightLanes => 128

/-- `WIDE_MIN_BYTES`. -/
def wideMinBytes : WideMin → Nat
  | .bytes512 => 512
  | .bytes256 => 256

/-- `NARROW_BULK_MIN`. -/
def narrowBulkMin : Nat := 128

/-- `TIER` codes (rule R28). -/
def tierNone : BitVec 2 := 0b00
def tierNarrow : BitVec 2 := 0b01
def tierWide : BitVec 2 := 0b10

/-- `select_tier(hwcap, rem)` (41_probe.md rule R100), its lines (1) to (5). -/
def selectTier (p : Straps) (hwcap : U32) (rem : Nat) : BitVec 2 :=
  if capBe hwcap = true then tierNone
  else if capNclmul hwcap = false then tierNone
  else if rem < minVecBytes p.minVec then tierNone
  else if capWclmul hwcap = true ∧ capV512 hwcap = true ∧ wideMinBytes p.wideMin ≤ rem then tierWide
  else tierNarrow

end Sys2Proof.Machine
end

