-- ==== Sys2Proof/Machine/Flags.lean ====
section
/-! DEFINITION. Flags, and what this hardware has in their place.  CRC32-FE "has no status flags, condition codes or predicate
registers" and no operation sets a flag (10_state.md rule R26), so nothing is computed here for a flag.  "Every branch of the sequence
tests `REM` or `TIER` directly": those tests, one for each conditional row of the next-operation relation (46_orchestrator.md rule R193), are
written here once. -/

namespace Sys2Proof.Machine

/-- After `PROBE` (rule R101): by `TIER`, then by `REM`. -/
def afterProbe (tier : BitVec 2) (rem : Nat) : Instr :=
  if tier = tierNone then (if rem > 0 then .sbyte else .done)
  else if tier = tierWide then .wInit
  else if rem ≥ narrowBulkMin then .nInit4 else .nInit1

/-- After `SBYTE` and `R.BARRETT` (rules R91, R172). -/
def afterScalar (rem : Nat) : Instr := if rem > 0 then .sbyte else .done

/-- After `W.INIT` and `W.FOLD4` (rules R131, R132). -/
def afterWideBlock (rem : Nat) : Instr := if rem ≥ 256 then .wFold4 else .wCollapse

/-- After `W.COLLAPSE` and `W.FOLD1` (rules R133, R134). -/
def afterWideLane (rem : Nat) : Instr := if rem ≥ 64 then .wFold1 else .wHred

/-- After `N.INIT4` and `N.FOLD4` (rules R151, R152). -/
def afterNarrowBlock (rem : Nat) : Instr := if rem ≥ 64 then .nFold4 else .nCollapse

/-- After `N.COLLAPSE`, `N.INIT1` and `N.FOLD1` (rules R153 to R155). -/
def afterNarrowLane (rem : Nat) : Instr := if rem ≥ 16 then .nFold1 else .rFold64

end Sys2Proof.Machine
end

