-- ==== Sys2Proof/Machine/Clmul.lean ====
section
/-! DEFINITION. The multiplier commands presented on the multiplier's own command port (42_clmul.md rules R112 to R119; log entry 7): each is a
pure function of the port's operands and writes no register of the machine. Inside the folds and reductions the same products are
taken by `clmul` and `vclmul` (rule R75). -/

namespace Sys2Proof.Machine

/-- A 128-bit command: the product of the port's 128-bit operand pair. -/
def clmulCommand (ha hb : Half) (s : State) : Result State :=
  needFeature s .narrowMultiply (.next (s.takeMulWord.setDst128 (clmul ha hb s.mul.a128 s.mul.b128)))

/-- A 512-bit command: the four products of the port's 512-bit operand pair. -/
def vclmulCommand (ha hb : Half) (s : State) : Result State :=
  needFeature s .wideMultiply (.next (s.takeMulWord.setDst512 (vclmul ha hb s.mul.a512 s.mul.b512)))

/-- `CLMUL.LL` (rule R112): `A.lo` times `B.lo`. -/
def execClmulLL (s : State) : Result State := clmulCommand .lo .lo s

/-- `CLMUL.HL` (rule R113): `A.hi` times `B.lo`. -/
def execClmulHL (s : State) : Result State := clmulCommand .hi .lo s

/-- `CLMUL.LH` (rule R114): `A.lo` times `B.hi`. -/
def execClmulLH (s : State) : Result State := clmulCommand .lo .hi s

/-- `CLMUL.HH` (rule R115): `A.hi` times `B.hi`. -/
def execClmulHH (s : State) : Result State := clmulCommand .hi .hi s

/-- `VCLMUL.LL` (rule R116). -/
def execVclmulLL (s : State) : Result State := vclmulCommand .lo .lo s

/-- `VCLMUL.HL` (rule R117). -/
def execVclmulHL (s : State) : Result State := vclmulCommand .hi .lo s

/-- `VCLMUL.LH` (rule R118). -/
def execVclmulLH (s : State) : Result State := vclmulCommand .lo .hi s

/-- `VCLMUL.HH` (rule R119). -/
def execVclmulHH (s : State) : Result State := vclmulCommand .hi .hi s

end Sys2Proof.Machine
end

