-- ==== Sys2Proof/Machine/Command.lean ====
section
/-! DEFINITION. The Orchestrator's `UPDATE` and `DONE` (46_orchestrator.md rules R191, R192). -/

namespace Sys2Proof.Machine

/-- The state in which a command has been accepted (rule R191), with what becomes unspecified there (rule R35). -/
def State.accept (s : State) (c : Command) : State :=
  ({ s.forgetResult.invalidate with
    crc := c.crcIn
    len := c.len
    pos := 0
    rem := c.len
    hwcap := c.hwcap
    host := none } : State).goto .probe

/-- `UPDATE` (rule R191). Enabled only in `IDLE` and only when the host presents a command; with none presented "the engine stays in `IDLE`
and no state changes". -/
def execUpdate (s : State) : Result State :=
  if s.op = Instr.code .update then
    match s.host with
    | none => .next s
    | some c => if c.wf s.straps.lenBits = true then .next (s.accept c) else .refused .lengthTooWide
  else .refused .commandWhileBusy

/-- `DONE` (rule R192), with what becomes unspecified there (rule R35). -/
def execDone (s : State) : Result State :=
  needLegalTier s <|
    if s.rem = 0 then .next (({ s.forgetCommand.invalidate with crcOut := s.crc } : State).goto .update)
    else .refused (.preconditionViolation .bytesLeft)

end Sys2Proof.Machine
end

