-- ==== Sys2Proof/Machine/NarrowFold.lean ====
section
/-! DEFINITION. VectorFoldEngine, narrow tier (44_narrow_fold.md rules R151 to R155). -/

namespace Sys2Proof.Machine

/-- `N.INIT4` (rule R151): reads 64 bytes, and requires `REM >= 128`. -/
def execNInit4 (s : State) : Result State :=
  needVectorTier s <| needFeature s .narrowLanes <| needBytes s 128 64 <|
    .next (((s.writeX (memRead16 s s.pos ^^^ s.crc.setWidth 128) (memRead16 s (s.pos + 16))
      (memRead16 s (s.pos + 32)) (memRead16 s (s.pos + 48))).advance 64).goto (afterNarrowBlock (s.rem - 64)))

/-- `N.FOLD4` (rule R152), `ROM[1]`. -/
def execNFold4 (s : State) : Result State :=
  needVectorTier s <| needFeature s .narrowLanes <| needBytes s 64 64 <| needX s fun x0 x1 x2 x3 =>
    .next (((s.writeX (fold128 x0 (memRead16 s s.pos) (rom 1)) (fold128 x1 (memRead16 s (s.pos + 16)) (rom 1))
      (fold128 x2 (memRead16 s (s.pos + 32)) (rom 1)) (fold128 x3 (memRead16 s (s.pos + 48)) (rom 1))).advance 64).goto
        (afterNarrowBlock (s.rem - 64)))

/-- `N.COLLAPSE` (rule R153), `ROM[2]`. -/
def execNCollapse (s : State) : Result State :=
  needVectorTier s <| needFeature s .narrowLanes <| needX s fun x0 x1 x2 x3 =>
    .next ((s.writeX0 (fold128 (fold128 (fold128 x0 x1 (rom 2)) x2 (rom 2)) x3 (rom 2))).goto (afterNarrowLane s.rem))

/-- `N.INIT1` (rule R154). -/
def execNInit1 (s : State) : Result State :=
  needVectorTier s <| needFeature s .narrowLanes <| needBytes s 16 16 <|
    .next (((s.writeX0 (memRead16 s s.pos ^^^ s.crc.setWidth 128)).advance 16).goto (afterNarrowLane (s.rem - 16)))

/-- `N.FOLD1` (rule R155), `ROM[2]`. -/
def execNFold1 (s : State) : Result State :=
  needVectorTier s <| needFeature s .narrowLanes <| needBytes s 16 16 <| needX0 s fun x0 =>
    .next (((s.writeX0 (fold128 x0 (memRead16 s s.pos) (rom 2))).advance 16).goto (afterNarrowLane (s.rem - 16)))

end Sys2Proof.Machine
end

