-- ==== Sys2Proof/Machine/Probe.lean ====
section
/-! DEFINITION. CapabilityProbe's `PROBE` (41_probe.md rule R101). -/

namespace Sys2Proof.Machine

/-- `PROBE` (rule R101): select the tier and dispatch. No precondition. -/
def execProbe (s : State) : Result State :=
  .next ((s.setTier (selectTier s.straps s.hwcap s.rem)).goto (afterProbe (selectTier s.straps s.hwcap s.rem) s.rem))

end Sys2Proof.Machine
end

