-- ==== Sys2Proof/Machine/Reduce.lean ====
section
/-! DEFINITION. The reduction pipeline (45_reduce.md rules R171, R172). -/

namespace Sys2Proof.Machine

/-- `R.FOLD64` (rule R171): 128 bits to 64. -/
def execRFold64 (s : State) : Result State :=
  needVectorTier s <| needFeature s .narrowLanes <| needX0 s fun x0 =>
    .next ((s.writeX0 (foldTo64 x0)).goto .rBarrett)

/-- `R.BARRETT` (rule R172): 64 bits to the 32-bit CRC. That `X[0]` was written by `R.FOLD64` is no fact about one state (log entry 9). -/
def execRBarrett (s : State) : Result State :=
  needVectorTier s <| needFeature s .narrowLanes <| needX0 s fun x0 =>
    .next (((s.writeX0 (barrett x0)).setCrc (resultLane (barrett x0))).goto (afterScalar s.rem))

end Sys2Proof.Machine
end

