-- ==== Sys2Proof/Machine/Scalar.lean ====
section
/-! DEFINITION. ScalarEngine's `SBYTE` (40_scalar.md rule R91). -/

namespace Sys2Proof.Machine

/-- `SBYTE` (rule R91): consume one byte into `CRC`; as the whole computation and as the tail (92_eei_decisions.md D30). -/
def execSbyte (s : State) : Result State :=
  needLegalTier s <| needBytes s 1 1 <|
    .next (((s.setCrc (crcStep s.crc (memRead1 s s.pos))).advance 1).goto (afterScalar (s.rem - 1)))

end Sys2Proof.Machine
end

