-- ==== Sys2Proof/Machine/WideFold.lean ====
section
/-! DEFINITION. VectorFoldEngine, wide tier (43_wide_fold.md rules R131 to R135). -/

namespace Sys2Proof.Machine

/-- `W.INIT` (rule R131). -/
def execWInit (s : State) : Result State :=
  needVectorTier s <| needFeature s .wideLanes <| needBytes s 256 256 <|
    .next (((s.writeZ (memRead64 s s.pos ^^^ s.crc.setWidth 512) (memRead64 s (s.pos + 64))
      (memRead64 s (s.pos + 128)) (memRead64 s (s.pos + 192))).advance 256).goto (afterWideBlock (s.rem - 256)))

/-- `W.FOLD4` (rule R132), `ROM[0]`. -/
def execWFold4 (s : State) : Result State :=
  needVectorTier s <| needFeature s .wideLanes <| needBytes s 256 256 <| needZ s fun z0 z1 z2 z3 =>
    .next (((s.writeZ (fold512 z0 (memRead64 s s.pos) (rom 0)) (fold512 z1 (memRead64 s (s.pos + 64)) (rom 0))
      (fold512 z2 (memRead64 s (s.pos + 128)) (rom 0)) (fold512 z3 (memRead64 s (s.pos + 192)) (rom 0))).advance 256).goto
        (afterWideBlock (s.rem - 256)))

/-- `W.COLLAPSE` (rule R133), `ROM[1]`. -/
def execWCollapse (s : State) : Result State :=
  needVectorTier s <| needFeature s .wideLanes <| needZ s fun z0 z1 z2 z3 =>
    .next ((s.writeZ0 (fold512 (fold512 (fold512 z0 z1 (rom 1)) z2 (rom 1)) z3 (rom 1))).goto (afterWideLane s.rem))

/-- `W.FOLD1` (rule R134), `ROM[1]`. -/
def execWFold1 (s : State) : Result State :=
  needVectorTier s <| needFeature s .wideLanes <| needBytes s 64 64 <| needZ0 s fun z0 =>
    .next (((s.writeZ0 (fold512 z0 (memRead64 s s.pos) (rom 1))).advance 64).goto (afterWideLane (s.rem - 64)))

/-- `W.HRED` (rule R135), `ROM[2]`: the 128-bit commands inside the wide tier, so both features are needed. -/
def execWHred (s : State) : Result State :=
  needVectorTier s <| needFeature s .wideLanes <| needFeature s .narrowLanes <| needZ0 s fun z0 =>
    .next ((s.writeX0 (fold128 (fold128 (fold128 (lane z0 0) (lane z0 1) (rom 2)) (lane z0 2) (rom 2)) (lane z0 3) (rom 2))).goto
      .rFold64)

end Sys2Proof.Machine
end

