-- ==== Sys2Proof/Machine/Dispatch.lean ====
section
/-! DEFINITION. One arm per operation of 30_encoding.md rule R73. -/

namespace Sys2Proof.Machine

def exec (i : Instr) (s : State) : Host.Outcome State Fault Refusal :=
  match i with
  | .update => Sys2Proof.Machine.execUpdate s
  | .probe => Sys2Proof.Machine.execProbe s
  | .sbyte => Sys2Proof.Machine.execSbyte s
  | .done => Sys2Proof.Machine.execDone s
  | .wInit => Sys2Proof.Machine.execWInit s
  | .wFold4 => Sys2Proof.Machine.execWFold4 s
  | .wCollapse => Sys2Proof.Machine.execWCollapse s
  | .wFold1 => Sys2Proof.Machine.execWFold1 s
  | .wHred => Sys2Proof.Machine.execWHred s
  | .nInit4 => Sys2Proof.Machine.execNInit4 s
  | .nFold4 => Sys2Proof.Machine.execNFold4 s
  | .nCollapse => Sys2Proof.Machine.execNCollapse s
  | .nInit1 => Sys2Proof.Machine.execNInit1 s
  | .nFold1 => Sys2Proof.Machine.execNFold1 s
  | .rFold64 => Sys2Proof.Machine.execRFold64 s
  | .rBarrett => Sys2Proof.Machine.execRBarrett s
  | .clmulLL => Sys2Proof.Machine.execClmulLL s
  | .clmulHL => Sys2Proof.Machine.execClmulHL s
  | .clmulLH => Sys2Proof.Machine.execClmulLH s
  | .clmulHH => Sys2Proof.Machine.execClmulHH s
  | .vclmulLL => Sys2Proof.Machine.execVclmulLL s
  | .vclmulHL => Sys2Proof.Machine.execVclmulHL s
  | .vclmulLH => Sys2Proof.Machine.execVclmulLH s
  | .vclmulHH => Sys2Proof.Machine.execVclmulHH s

end Sys2Proof.Machine
end

