-- ==== Sys2Proof/Machine/Fetch.lean ====
section
/-! DEFINITION. Where the next operation word comes from (30_encoding.md rule R70), and how a given word comes to be the next one.  The
operation word "is not fetched from a memory": the sequencer's next word is the code in `OP` with class 0 implied (rule R70 (a)), and a
multiplier command's word stands on the multiplier's command port (rule R70 (b)), which takes no other word. -/

namespace Sys2Proof.Machine

/-- The next operation word: the code in `OP` with class 0 implied (rule R70 (a)). -/
def fetchWord (s : State) : U8 := formatS s.op

/-- The sequencer operation `OP` names; a reserved code is refused by name (rule R76, U11). -/
def fetchInstr (s : State) : Except Refusal Instr :=
  match decodeWord (fetchWord s) with
  | .ok i => .ok i
  | .error e => .error (.reservedWord (fetchWord s) e)

/-- The multiplier command a word on the multiplier's port is.  The port takes multiplier commands only (rule R70 (b)): a reserved word is
refused by name (rule R76), and so is a class-0 word, of which the spec says nothing there (DESIGN CHOICE, log entry 7). -/
def portInstr (w : U8) : Except Refusal Instr :=
  match decodeWord w with
  | .ok i => if i.format = .m then .ok i else .error (.notMultiplierCommand w)
  | .error e => .error (.reservedWord w e)

/-! ### Making an operation the next one (log entry 14) -/

/-- `TIER` as it stands if it is a vector tier, else `t`. -/
def State.inVectorTier (s : State) (t : BitVec 2) : State :=
  if s.tier = tierNarrow ∨ s.tier = tierWide then s else s.setTier t

/-- `TIER` as it stands if it is legal, else `None`. -/
def State.inLegalTier (s : State) : State := if s.tier = 0b11#2 then s.setTier tierNone else s

/-- The cursor as it stands if `need` bytes are left and `POS + REM = LEN`, else at the start of a buffer of `need` bytes. -/
def State.withBytes (s : State) (need : Nat) : State :=
  if need ≤ s.rem ∧ s.pos + s.rem = s.len then s else { s with pos := 0, rem := need, len := need }

/-- The cursor as it stands if no byte is left, else at the end of its buffer. -/
def State.withNoBytes (s : State) : State := if s.rem = 0 then s else { s with pos := s.len, rem := 0 }

/-- An accumulator as it stands if it is valid, else valid with zero. -/
def Acc.orZero {w : Nat} : Acc w → Acc w
  | .valid v => .valid v
  | .unwritten => .valid 0

/-- A file in which every accumulator is valid. -/
def AccFile.orZero {w : Nat} (f : AccFile w) : AccFile w := ⟨f.r0.orZero, f.r1.orZero, f.r2.orZero, f.r3.orZero⟩

/-- A host command as it stands, else one with an empty buffer. -/
def State.withCommand (s : State) : State :=
  match s.host with
  | some _ => s
  | none => { s with host := some ⟨0, 0, 0⟩ }

/-- The command in progress that a sequencer operation runs in: what the sequencer has established whenever it selects that operation
(rules R104, R193, R211), each field left as it stands where it already meets the operation's precondition. -/
def State.readyFor (s : State) : Instr → State
  | .update => s.withCommand
  | .sbyte => (s.inLegalTier).withBytes 1
  | .done => (s.inLegalTier).withNoBytes
  | .wInit => (s.inVectorTier tierWide).withBytes 256
  | .wFold4 => { (s.inVectorTier tierWide).withBytes 256 with z := s.z.orZero }
  | .wCollapse => { s.inVectorTier tierWide with z := s.z.orZero }
  | .wFold1 => { (s.inVectorTier tierWide).withBytes 64 with z := s.z.orZero }
  | .wHred => { s.inVectorTier tierWide with z := s.z.orZero }
  | .nInit4 => (s.inVectorTier tierNarrow).withBytes 128
  | .nFold4 => { (s.inVectorTier tierNarrow).withBytes 64 with x := s.x.orZero }
  | .nCollapse => { s.inVectorTier tierNarrow with x := s.x.orZero }
  | .nInit1 => (s.inVectorTier tierNarrow).withBytes 16
  | .nFold1 => { (s.inVectorTier tierNarrow).withBytes 16 with x := s.x.orZero }
  | .rFold64 => { s.inVectorTier tierNarrow with x := s.x.orZero }
  | .rBarrett => { s.inVectorTier tierNarrow with x := s.x.orZero }
  | _ => s

/-- The word put where it is read from: a class-0 word in `OP`, any other on the multiplier's command port, with the sequencer waiting in `IDLE`, so
that the step's own operation changes nothing. -/
def State.placeWord (s : State) (w : U8) : State :=
  if fieldClass w = 0#3 then { s with op := fieldOpc w, mul := { s.mul with word := none } }
  else { s with op := Instr.code .update, host := none, mul := { s.mul with word := some w } }

end Sys2Proof.Machine
end

