-- ==== Sys2Proof/Machine/Sequencer.lean ====
section
/-! DEFINITION. What one step executes (46_orchestrator.md rule R190): "A step is one operation ..., format S", and "Multiplier commands are part of the
step that issues them and are not steps". -/

namespace Sys2Proof.Machine

/-- Go on with `k` from the next state, if there is one. -/
def followedBy (r : Result State) (k : State → Result State) : Result State :=
  match r with
  | .next t => k t
  | .fault e => .fault e
  | .refused e => .refused e

/-- Execute the multiplier command presented on the port, if there is one.  The commands the folds and reductions issue themselves (rule R75) are part
of their meanings; that one may also be presented from outside is the model's (DESIGN CHOICE, log entry 7). -/
def runPort (s : State) : Result State :=
  match s.mul.word with
  | none => .next s
  | some w =>
    match portInstr w with
    | .ok i => exec i s
    | .error r => .refused r

/-- Execute the operation named by `OP` completely, including the write of `OP` (rule R190). -/
def runOperation (s : State) : Result State :=
  match fetchInstr s with
  | .ok i => exec i s
  | .error r => .refused r

/-- One step: one sequencer operation, with the multiplier command presented for it, if any, executed as part of it. -/
def sequencerStep (s : State) : Result State := followedBy (runPort s) runOperation

end Sys2Proof.Machine
end

