-- ==== Sys2Proof/Machine/Step.lean ====
section
/-! DEFINITION. One step (46_orchestrator.md rule R190): the operation named by `OP` is executed completely, including the write of `OP`,
before the next begins. -/

namespace Sys2Proof.Machine

/-- One step of the machine. -/
def step (s : State) : Host.Outcome State Fault Refusal := sequencerStep s

/-- The state in which the operation whose bits are `w` is the next one to run (log entry 14): a sequencer operation in `OP`, a multiplier command on the
port of a sequencer that waits in `IDLE`. -/
def State.withFetchWord (s : State) (nbits w : Nat) : State :=
  match decodeTableWord nbits w with
  | some i => (s.readyFor i).placeWord (BitVec.ofNat 8 w)
  | none => s.placeWord (BitVec.ofNat 8 w)

end Sys2Proof.Machine
end

