-- ==== Sys2Proof/Safety.lean ====
section
/-! DEFINITION. What counts as a safe run, in the terms the claims use: the precondition of each operation (60_exceptions.md rule R211), the
invariant of the sequence (10_state.md rules R23, R24; 41_probe.md rule R104), what the accumulators stand for (rules R136, R156), the
complete next-operation relation (46_orchestrator.md rule R193) and the number of operations of a command (rule R202). -/

namespace Sys2Proof.Machine

/-! ### What each operation reads (10_state.md rule R34) -/

/-- The bytes an operation reads from the buffer (column "buffer" of rule R34). -/
def bytesRead : Instr → Nat
  | .sbyte => 1
  | .wInit => 256
  | .wFold4 => 256
  | .wFold1 => 64
  | .nInit4 => 64
  | .nFold4 => 64
  | .nInit1 => 16
  | .nFold1 => 16
  | _ => 0

/-- The `REM` an operation's rule requires (rules R91, R131, R132, R134, R151, R152, R154, R155). -/
def bytesRequired : Instr → Nat
  | .nInit4 => 128
  | i => bytesRead i

/-- The operations that write `CRC` (column "CRC" of rule R34). -/
def writesCrc (i : Instr) : Bool := i ∈ [.update, .sbyte, .rBarrett]

/-- The operations that write or invalidate `X[0]`. -/
def writesX0 (i : Instr) : Bool :=
  i ∈ [.update, .done, .wHred, .nInit4, .nFold4, .nCollapse, .nInit1, .nFold1, .rFold64, .rBarrett]

/-- The operations that write or invalidate `X[1..3]`. -/
def writesX123 (i : Instr) : Bool := i ∈ [.update, .done, .nInit4, .nFold4]

/-- The operations that write or invalidate `Z[0]`. -/
def writesZ0 (i : Instr) : Bool := i ∈ [.update, .done, .wInit, .wFold4, .wCollapse, .wFold1]

/-- The operations that write or invalidate `Z[1..3]`. -/
def writesZ123 (i : Instr) : Bool := i ∈ [.update, .done, .wInit, .wFold4]

/-- The operations after which `POS` and `REM` may differ: those that read the buffer, `UPDATE`, and `DONE`, which leaves them
unspecified (rule R35). -/
def writesCursor (i : Instr) : Bool :=
  i ∈ [.update, .done, .sbyte, .wInit, .wFold4, .wFold1, .nInit4, .nFold4, .nInit1, .nFold1]

/-- The operations after which `TIER` may differ: `PROBE`, and `UPDATE` and `DONE`, which leave it unspecified (rule R35). -/
def writesTier (i : Instr) : Bool := i ∈ [.update, .done, .probe]

/-- The operations at the two ends of a command: the only ones after which `LEN`, `HWCAP` or `CRC_OUT` may differ (rule R35). -/
def endsCommand (i : Instr) : Bool := i ∈ [.update, .done]

/-- The `W.*`, `N.*` and `R.*` operations (rule R211 (a)). -/
def isVector : Instr → Bool
  | .wInit | .wFold4 | .wCollapse | .wFold1 | .wHred => true
  | .nInit4 | .nFold4 | .nCollapse | .nInit1 | .nFold1 => true
  | .rFold64 | .rBarrett => true
  | _ => false

/-- The operations that run after `PROBE` has written `TIER`. -/
def runsAfterProbe (i : Instr) : Bool := isVector i || i == .sbyte || i == .done

/-- What an operation needs the platform to have (rules R211 (c), R247). -/
def featuresNeeded : Instr → List Feature
  | .wInit | .wFold4 | .wCollapse | .wFold1 => [.wideLanes]
  | .wHred => [.wideLanes, .narrowLanes]
  | .nInit4 | .nFold4 | .nCollapse | .nInit1 | .nFold1 => [.narrowLanes]
  | .rFold64 | .rBarrett => [.narrowLanes]
  | .clmulLL | .clmulHL | .clmulLH | .clmulHH => [.narrowMultiply]
  | .vclmulLL | .vclmulHL | .vclmulLH | .vclmulHH => [.wideMultiply]
  | _ => []

/-- The validity mark (rule R23). -/
def Acc.isValid {w : Nat} : Acc w → Bool
  | .valid _ => true
  | .unwritten => false

/-- All four accumulators of a file are valid. -/
def AccFile.allValid {w : Nat} (f : AccFile w) : Bool := f.r0.isValid && f.r1.isValid && f.r2.isValid && f.r3.isValid

/-- Every accumulator the operation's rule reads is valid (rules R23, R34). -/
def accumulatorsReady : Instr → State → Bool
  | .wFold4, s | .wCollapse, s => s.z.allValid
  | .wFold1, s | .wHred, s => s.z.r0.isValid
  | .nFold4, s | .nCollapse, s => s.x.allValid
  | .nFold1, s | .rFold64, s | .rBarrett, s => s.x.r0.isValid
  | _, _ => true

/-- A presented command, if there is one, fits the instance's length counters (92_eei_decisions.md D18). -/
def hostFits (s : State) : Bool :=
  match s.host with
  | none => true
  | some c => c.wf s.straps.lenBits

/-- The precondition of an operation: what its rule and rule R211 require of the state it starts in. -/
abbrev Precondition (i : Instr) (s : State) : Prop :=
  (runsAfterProbe i = true → s.tier ≠ 0b11#2) ∧
  (isVector i = true → s.tier ≠ tierNone) ∧
  (∀ f ∈ featuresNeeded i, hasFeature s.straps.platform f = true) ∧
  (bytesRequired i ≤ s.rem) ∧
  (bytesRead i ≠ 0 → s.pos + bytesRead i ≤ s.len) ∧
  (accumulatorsReady i s = true) ∧
  (i = .done → s.rem = 0) ∧
  (i = .update → s.op = Instr.code .update ∧ hostFits s = true)

/-! ### The invariant of the sequence -/

/-- The capability word is true of the platform (rule R247): every feature it reports is present, and a big-endian platform is
reported. -/
abbrev Truthful (p : Config.Platform) (h : U32) : Prop :=
  (capNclmul h = true → p.nclmul = true) ∧ (capWclmul h = true → p.wclmul = true) ∧
  (capV512 h = true → p.v512 = true) ∧ (p.bigEndian = true → capBe h = true)

/-- The host keeps its duties for the command it presents, if it presents one (rule R204). -/
def hostOk (s : State) : Bool :=
  match s.host with
  | none => true
  | some c => c.wf s.straps.lenBits && decide (Truthful s.straps.platform c.hwcap)

/-- Bits 127:64 of a valid accumulator are zero, as `R.FOLD64` leaves them (rule R171). -/
def Acc.upperZero : Acc 128 → Bool
  | .valid v => half .hi v == 0
  | .unwritten => false

/-- The cursor adds up (rule R24). -/
abbrev CursorOk (s : State) : Prop := s.pos + s.rem = s.len

/-- Under `Wide512` on a platform that can run it. -/
abbrev WideOk (s : State) : Prop :=
  s.tier = tierWide ∧ hasFeature s.straps.platform .wideLanes = true ∧ hasFeature s.straps.platform .narrowLanes = true

/-- Under `Narrow128` on a platform that can run it. -/
abbrev NarrowOk (s : State) : Prop := s.tier = tierNarrow ∧ hasFeature s.straps.platform .narrowLanes = true

/-- The reduction is entered under either vector tier, with less than that tier's lane left (rules R130, R150, R170). -/
abbrev ReduceOk (s : State) : Prop := (WideOk s ∧ s.rem < 64) ∨ (NarrowOk s ∧ s.rem < 16)

/-- What holds whenever the sequencer is about to run an operation: its precondition (rule R211) and what the path to it has established (rules
R104, R130, R150, R170). -/
def phaseAt (i : Instr) (s : State) : Bool :=
  match i with
  | .update => true
  | .probe => decide (s.pos = 0 ∧ s.rem = s.len ∧ Truthful s.straps.platform s.hwcap)
  | .sbyte => decide (CursorOk s ∧ s.tier ≠ 0b11#2 ∧ 1 ≤ s.rem)
  | .done => decide (CursorOk s ∧ s.tier ≠ 0b11#2 ∧ s.rem = 0)
  | .wInit => decide (CursorOk s ∧ WideOk s ∧ s.pos = 0 ∧ 256 ≤ s.rem)
  | .wFold4 => decide (CursorOk s ∧ WideOk s ∧ s.z.allValid = true ∧ 256 ≤ s.rem)
  | .wCollapse => decide (CursorOk s ∧ WideOk s ∧ s.z.allValid = true ∧ s.rem < 256)
  | .wFold1 => decide (CursorOk s ∧ WideOk s ∧ s.z.r0.isValid = true ∧ 64 ≤ s.rem ∧ s.rem < 256)
  | .wHred => decide (CursorOk s ∧ WideOk s ∧ s.z.r0.isValid = true ∧ s.rem < 64)
  | .nInit4 => decide (CursorOk s ∧ NarrowOk s ∧ s.pos = 0 ∧ 128 ≤ s.rem)
  | .nFold4 => decide (CursorOk s ∧ NarrowOk s ∧ s.x.allValid = true ∧ 64 ≤ s.rem)
  | .nCollapse => decide (CursorOk s ∧ NarrowOk s ∧ s.x.allValid = true ∧ s.rem < 64)
  | .nInit1 => decide (CursorOk s ∧ NarrowOk s ∧ s.pos = 0 ∧ 16 ≤ s.rem ∧ s.rem < 128)
  | .nFold1 => decide (CursorOk s ∧ NarrowOk s ∧ s.x.r0.isValid = true ∧ 16 ≤ s.rem)
  | .rFold64 => decide (CursorOk s ∧ ReduceOk s ∧ s.x.r0.isValid = true)
  | .rBarrett => decide (CursorOk s ∧ ReduceOk s ∧ s.x.r0.isValid = true ∧ s.x.r0.upperZero = true)
  | .clmulLL | .clmulHL | .clmulLH | .clmulHH => false
  | .vclmulLL | .vclmulHL | .vclmulLH | .vclmulHH => false

/-- `OP` holds an assigned code (rule R25), and what is due before the operation it names holds. -/
def phaseOk (s : State) : Bool :=
  match decodeS s.op with
  | .ok i => phaseAt i s
  | .error _ => false

/-- The invariant every step keeps: the buffer in its canonical form, no foreign multiplier command, a host that keeps its duties, and
what the operation about to run needs. -/
abbrev Inv (s : State) : Prop := s.mem.wf ∧ s.mul.word = none ∧ hostOk s = true ∧ phaseOk s = true

/-! ### What the accumulators stand for (rules R136, R156) -/

/-- The bytes of a narrow accumulator, none if it is unwritten. -/
def Acc.bytes16 : Acc 128 → List U8
  | .valid v => le16 v
  | .unwritten => []

/-- The bytes of a wide accumulator, none if it is unwritten. -/
def Acc.bytes64 : Acc 512 → List U8
  | .valid v => le64 v
  | .unwritten => []

/-- The bytes of the four accumulators of the narrow file, in buffer order. -/
def narrowBytes (f : AccFile 128) : List U8 := f.r0.bytes16 ++ f.r1.bytes16 ++ f.r2.bytes16 ++ f.r3.bytes16

/-- The bytes of the four accumulators of the wide file, in buffer order. -/
def wideBytes (f : AccFile 512) : List U8 := f.r0.bytes64 ++ f.r1.bytes64 ++ f.r2.bytes64 ++ f.r3.bytes64

/-- The `CRC` the reduction's last step would give from this accumulator (rule R172). -/
def Acc.reduced : Acc 128 → U32
  | .valid v => resultLane (barrett v)
  | .unwritten => 0

/-- `scalar(crc_in, B[0 .. POS-1])`: the CRC of what has been consumed. -/
def consumedCrc (crcIn : U32) (s : State) : U32 := scalar crcIn (s.mem.bytes 0 s.pos)

/-- `OP` is one of the operations. -/
abbrev opIn (s : State) (l : List Instr) : Prop := s.op ∈ l.map Instr.code

/-- What the state stands for in a command whose operand was `crcIn` (rules R136, R156): before the reduction ends the accumulators, read as a
message from a zero CRC, have the CRC of everything consumed, and `CRC` still holds the incoming value (rule R21); afterwards `CRC`
is the CRC of everything consumed. -/
abbrev StandsFor (crcIn : U32) (s : State) : Prop :=
  (opIn s [.probe, .wInit, .nInit4, .nInit1] → s.pos = 0) ∧
  (opIn s [.wFold4, .wCollapse] → scalar 0 (wideBytes s.z) = consumedCrc crcIn s) ∧
  (opIn s [.wFold1, .wHred] → scalar 0 s.z.r0.bytes64 = consumedCrc crcIn s) ∧
  (opIn s [.nFold4, .nCollapse] → scalar 0 (narrowBytes s.x) = consumedCrc crcIn s) ∧
  (opIn s [.nFold1, .rFold64] → scalar 0 s.x.r0.bytes16 = consumedCrc crcIn s) ∧
  (opIn s [.rBarrett] → s.x.r0.reduced = consumedCrc crcIn s) ∧
  (opIn s [.sbyte, .done] → s.crc = consumedCrc crcIn s) ∧
  (opIn s [.probe, .wInit, .wFold4, .wCollapse, .wFold1, .wHred, .nInit4, .nFold4, .nCollapse, .nInit1, .nFold1, .rFold64, .rBarrett] →
    s.crc = crcIn)

/-- The next state, if there is one, changed by `f`. -/
def mapNext (f : State → State) : Result State → Result State
  | .next t => .next (f t)
  | .fault r => .fault r
  | .refused r => .refused r

/-! ### Control transfer (rule R193) -/

/-- The table of rule R193 row by row: the operation executed, the condition on `TIER` and on `REM` after it, the next operation. -/
inductive NextRow : Instr → BitVec 2 → Nat → Instr → Prop where
  | updateProbe (t : BitVec 2) (r : Nat) : NextRow .update t r .probe
  | probeSbyte (r : Nat) (h : r > 0) : NextRow .probe 0b00 r .sbyte
  | probeDone (r : Nat) (h : r = 0) : NextRow .probe 0b00 r .done
  | probeWide (r : Nat) : NextRow .probe 0b10 r .wInit
  | probeBulk (r : Nat) (h : r ≥ 128) : NextRow .probe 0b01 r .nInit4
  | probeShort (r : Nat) (h : r < 128) : NextRow .probe 0b01 r .nInit1
  | wInitFold (t : BitVec 2) (r : Nat) (h : r ≥ 256) : NextRow .wInit t r .wFold4
  | wInitCollapse (t : BitVec 2) (r : Nat) (h : r < 256) : NextRow .wInit t r .wCollapse
  | wFold4Again (t : BitVec 2) (r : Nat) (h : r ≥ 256) : NextRow .wFold4 t r .wFold4
  | wFold4Collapse (t : BitVec 2) (r : Nat) (h : r < 256) : NextRow .wFold4 t r .wCollapse
  | wCollapseFold (t : BitVec 2) (r : Nat) (h : r ≥ 64) : NextRow .wCollapse t r .wFold1
  | wCollapseHred (t : BitVec 2) (r : Nat) (h : r < 64) : NextRow .wCollapse t r .wHred
  | wFold1Again (t : BitVec 2) (r : Nat) (h : r ≥ 64) : NextRow .wFold1 t r .wFold1
  | wFold1Hred (t : BitVec 2) (r : Nat) (h : r < 64) : NextRow .wFold1 t r .wHred
  | wHredReduce (t : BitVec 2) (r : Nat) : NextRow .wHred t r .rFold64
  | nInit4Fold (t : BitVec 2) (r : Nat) (h : r ≥ 64) : NextRow .nInit4 t r .nFold4
  | nInit4Collapse (t : BitVec 2) (r : Nat) (h : r < 64) : NextRow .nInit4 t r .nCollapse
  | nFold4Again (t : BitVec 2) (r : Nat) (h : r ≥ 64) : NextRow .nFold4 t r .nFold4
  | nFold4Collapse (t : BitVec 2) (r : Nat) (h : r < 64) : NextRow .nFold4 t r .nCollapse
  | nCollapseFold (t : BitVec 2) (r : Nat) (h : r ≥ 16) : NextRow .nCollapse t r .nFold1
  | nCollapseReduce (t : BitVec 2) (r : Nat) (h : r < 16) : NextRow .nCollapse t r .rFold64
  | nInit1Fold (t : BitVec 2) (r : Nat) (h : r ≥ 16) : NextRow .nInit1 t r .nFold1
  | nInit1Reduce (t : BitVec 2) (r : Nat) (h : r < 16) : NextRow .nInit1 t r .rFold64
  | nFold1Again (t : BitVec 2) (r : Nat) (h : r ≥ 16) : NextRow .nFold1 t r .nFold1
  | nFold1Reduce (t : BitVec 2) (r : Nat) (h : r < 16) : NextRow .nFold1 t r .rFold64
  | rFold64Barrett (t : BitVec 2) (r : Nat) : NextRow .rFold64 t r .rBarrett
  | rBarrettTail (t : BitVec 2) (r : Nat) (h : r > 0) : NextRow .rBarrett t r .sbyte
  | rBarrettDone (t : BitVec 2) (r : Nat) (h : r = 0) : NextRow .rBarrett t r .done
  | sbyteAgain (t : BitVec 2) (r : Nat) (h : r > 0) : NextRow .sbyte t r .sbyte
  | sbyteDone (t : BitVec 2) (r : Nat) (h : r = 0) : NextRow .sbyte t r .done
  | doneIdle (t : BitVec 2) (r : Nat) : NextRow .done t r .update

/-! ### Whole commands (rules R195, R202) -/

/-- The operations a command of `len` bytes executes under each tier, `UPDATE` first and `DONE` last (the table of rule R202). -/
def operationSequence (tier : BitVec 2) (len : Nat) : List Instr :=
  if tier = tierNone then [.update, .probe] ++ List.replicate len .sbyte ++ [.done]
  else if tier = tierWide then
    [.update, .probe, .wInit] ++ List.replicate (len / 256 - 1) .wFold4 ++ [.wCollapse] ++
      List.replicate (len % 256 / 64) .wFold1 ++ [.wHred, .rFold64, .rBarrett] ++ List.replicate (len % 64) .sbyte ++ [.done]
  else if len < 128 then
    [.update, .probe, .nInit1] ++ List.replicate (len / 16 - 1) .nFold1 ++ [.rFold64, .rBarrett] ++
      List.replicate (len % 16) .sbyte ++ [.done]
  else
    [.update, .probe, .nInit4] ++ List.replicate (len / 64 - 1) .nFold4 ++ [.nCollapse] ++
      List.replicate (len % 64 / 16) .nFold1 ++ [.rFold64, .rBarrett] ++ List.replicate (len % 16) .sbyte ++ [.done]

/-- How many operations that is. -/
def operationCount (tier : BitVec 2) (len : Nat) : Nat := (operationSequence tier len).length

/-- The sequencer operations the machine executes in its next `n` steps, as far as it goes on (the trace listings of rule R78). -/
def trace : Nat → State → List Instr
  | 0, _ => []
  | n + 1, s =>
    match fetchInstr s with
    | .error _ => []
    | .ok i =>
      match step s with
      | .next t => i :: trace n t
      | .fault _ => [i]
      | .refused _ => [i]

/-- The tier `PROBE` will select for a command (rules R100, R101). -/
def commandTier (s : State) (c : Command) : BitVec 2 := selectTier s.straps c.hwcap c.len

/-- An idle machine with a command the host may present (rules R191, R204). -/
abbrev CommandReady (s : State) (c : Command) : Prop :=
  s.op = Instr.code .update ∧ s.mul.word = none ∧ s.host = some c ∧ c.wf s.straps.lenBits = true ∧
  Truthful s.straps.platform c.hwcap

/-- The state a command ends in, if the machine completes every operation of it. -/
abbrev CommandEndsIn (s : State) (c : Command) (t : State) : Prop :=
  Sys2Proof.core.run (operationCount (commandTier s c) c.len) s = .next t

end Sys2Proof.Machine
end

