-- ==== Sys2Proof/Certificates/Slice0/Obligations.lean ====
section
/-! DEFINITION. The statements for the provers. Each docstring names the rule or the section of spec/ the statement formalises; where a
clause rests on a choice of the model, it names the log entry (notes/assumptions/<n>.md). -/

open Sys2Proof Sys2Proof.Machine

/-! ### Operation words -/

/-- 30_encoding.md rule R73: the complete map, word by word, with each word's format; there are no other operations. -/
def Obligations.OpcodeMapIsComplete : Prop :=
  ∀ (w : U8) (i : Instr), (decodeWord w = .ok i ↔ (w.toNat, i) ∈
    [(0x00, .update), (0x01, .probe), (0x02, .sbyte), (0x03, .done), (0x08, .wInit), (0x09, .wFold4), (0x0A, .wCollapse),
      (0x0B, .wFold1), (0x0C, .wHred), (0x10, .nInit4), (0x11, .nFold4), (0x12, .nCollapse), (0x13, .nInit1), (0x14, .nFold1),
      (0x18, .rFold64), (0x19, .rBarrett), (0x20, .clmulLL), (0x21, .clmulHL), (0x22, .clmulLH), (0x23, .clmulHH),
      (0x24, .vclmulLL), (0x25, .vclmulHL), (0x26, .vclmulLH), (0x27, Instr.vclmulHH)]) ∧
    (decodeWord w = .ok i → i.format = if w.toNat < 0x20 then .s else .m)

/-- 30_encoding.md sections 1 and 2: decoding the encoding of a well-formed operation gives it back, with whatever bytes follow it, and a
word that decodes to an operation is that operation's word. -/
def Obligations.DecodeEncodeAgree : Prop :=
  (∀ (i : Instr) (rest : List U8), i.wf = true → decode (encode i ++ rest) = .ok (i, rest)) ∧
  (∀ (w : U8) (i : Instr), decodeWord w = .ok i → encodeWord i = w)

/-- 30_encoding.md section 4: the reserved words decode as invalid, a state whose `OP` holds one refuses, no operation puts a reserved
code in `OP`, and no two words name one operation.  That a word presented on the multiplier's port is refused if it is reserved, and that no operation
leaves a word there, rest on the port the model adds (log entry 7). -/
def Obligations.ReservedWordsRefused : Prop :=
  (∀ w : U8, (0x04 ≤ w.toNat ∧ w.toNat ≤ 0x07) ∨ (0x0D ≤ w.toNat ∧ w.toNat ≤ 0x0F) ∨ (0x15 ≤ w.toNat ∧ w.toNat ≤ 0x17) ∨
      (0x1A ≤ w.toNat ∧ w.toNat ≤ 0x1F) ∨ 0x28 ≤ w.toNat →
    ∃ e, decodeWord w = .error e ∧
      (∀ s : State, fetchWord s = w → ∃ r, step s = .refused r) ∧
      (∀ s : State, s.mul.word = none → fetchWord s = w → step s = .refused (.reservedWord w e)) ∧
      (∀ s : State, s.mul.word = some w → step s = .refused (.reservedWord w e))) ∧
  (∀ (i : Instr) (s t : State), exec i s = .next t →
    ((∃ j, decodeS s.op = .ok j) → ∃ j, decodeS t.op = .ok j) ∧ (t.mul.word = s.mul.word ∨ t.mul.word = none)) ∧
  (∀ (w w' : U8) (i : Instr), decodeWord w = .ok i → decodeWord w' = .ok i → w = w')

/-- 46_orchestrator.md section 1 and 30_encoding.md section 1: the word is `OP` with class 0, and a step executes the one sequencer operation it decodes
to and adds nothing around it.  A multiplier command presented on the port is executed as part of the step, before that operation, and a class-0
word there is refused: the port is the model's (log entry 7).  A word placed by `withFetchWord` is what the very next step executes (log entry 14). -/
def Obligations.StepRunsDecodedOperation : Prop :=
  (∀ (s : State) (i : Instr), s.mul.word = none → decodeWord (fetchWord s) = .ok i → i.wf = true → step s = exec i s) ∧
  (∀ s : State, fetchWord s = 0b000#3 ++ s.op) ∧
  (∀ s t : State, step s = .next t → ∃ (i : Instr) (m : State), i.format = .s ∧ s.op = i.code ∧ m = { s with mul := m.mul } ∧
    exec i m = .next t) ∧
  (∀ (s : State) (w : U8) (m i : Instr), s.mul.word = some w → decodeWord w = .ok m → m.format = .m →
    decodeWord (fetchWord s) = .ok i → step s = followedBy (exec m s) (exec i)) ∧
  (∀ (s : State) (w : U8) (i : Instr), s.mul.word = some w → decodeWord w = .ok i → i.format = .s →
    step s = .refused (.notMultiplierCommand w)) ∧
  (∀ (s : State) (i : Instr), step (s.withFetchWord 8 (encodeWord i).toNat) = exec i (s.withFetchWord 8 (encodeWord i).toNat))

/-! ### The sequence and the cursor -/

/-- 46_orchestrator.md rule R193: after every sequencer operation `OP` holds the code of the operation its row of the table names, and nothing
else; with no command presented `IDLE` stays; multiplier commands transfer nothing. -/
def Obligations.NextOperationRelation : Prop :=
  (∀ (i : Instr) (s t : State), i.format = .s → exec i s = .next t →
    (i = .update ∧ s.host = none ∧ t = s) ∨ ∃ j : Instr, j.format = .s ∧ t.op = j.code ∧ NextRow i t.tier t.rem j) ∧
  (∀ (i : Instr) (s t : State), i.format = .m → exec i s = .next t → t.op = s.op) ∧
  (∀ s t : State, exec .nInit4 s = .next t → t.op ≠ 0x12#5)

/-- 10_state.md rule R24: `UPDATE` starts the cursor; an operation that reads n bytes moves `POS` up and `REM` down by n; `POS + REM = LEN` is kept,
so `POS` never exceeds `LEN`. (`DONE` leaves the cursor unspecified, rule R35.) -/
def Obligations.CursorAccounting : Prop :=
  (∀ (s t : State) (c : Command), s.host = some c → exec .update s = .next t →
    t.pos = 0 ∧ t.rem = c.len ∧ t.len = c.len ∧ t.pos + t.rem = t.len) ∧
  (∀ (i : Instr) (s t : State), i ≠ .update → i ≠ .done → exec i s = .next t →
    t.pos = s.pos + bytesRead i ∧ s.rem = t.rem + bytesRead i ∧ t.len = s.len ∧
    (s.pos + s.rem = s.len → t.pos + t.rem = t.len ∧ t.pos ≤ t.len))

/-- 10_state.md section 10 and 20_memory.md section 4: what an operation does depends on no byte of the buffer but the ones at
`POS .. POS+n-1` that it reads. -/
def Obligations.OutcomeIgnoresUnreadBytes : Prop :=
  ∀ (i : Instr) (s : State) (m : Memory),
    (∀ a, s.pos ≤ a → a < s.pos + bytesRead i → m.read a = s.mem.read a) →
    exec i { s with mem := m } = mapNext (fun t => { t with mem := m }) (exec i s)

/-- 20_memory.md section 4 ("The engine performs no write to any address space") and 10_state.md section 7 (the straps are "not writable by any
command"): every byte of the buffer reads as before, and the straps are as before. -/
def Obligations.BufferAndStrapsNeverWritten : Prop :=
  ∀ (i : Instr) (s t : State), exec i s = .next t →
    (∀ a, t.mem.read a = s.mem.read a) ∧ t.mem = s.mem ∧ t.straps = s.straps

/-- 20_memory.md rule R53: byte i of a lane read is the byte at offset a+i, for each width; a wide lane's sub-lanes are the narrow lanes at
multiples of 16, and a narrow lane's bytes are the single bytes. -/
def Obligations.MemReadIsLittleEndian : Prop :=
  ∀ (s : State) (a : Nat),
    (memRead1 s a = s.mem.read a) ∧
    (∀ i < 16, (memRead16 s a).extractLsb' (8 * i) 8 = s.mem.read (a + i)) ∧
    (∀ i < 64, (memRead64 s a).extractLsb' (8 * i) 8 = s.mem.read (a + i)) ∧
    (∀ j < 4, lane (memRead64 s a) j = memRead16 s (a + 16 * j)) ∧
    (∀ i < 16, (memRead16 s a).extractLsb' (8 * i) 8 = memRead1 s (a + i))

/-- 10_state.md section 10 (the table of registers written) with section 11 (what becomes unspecified): the frame of all twenty-four
operations. -/
def Obligations.OperationsWriteOnlyTheirRegisters : Prop :=
  ∀ (i : Instr) (s t : State), exec i s = .next t →
    (writesCrc i = false → t.crc = s.crc) ∧
    (writesX0 i = false → t.x.r0 = s.x.r0) ∧
    (writesX123 i = false → t.x.r1 = s.x.r1 ∧ t.x.r2 = s.x.r2 ∧ t.x.r3 = s.x.r3) ∧
    (writesZ0 i = false → t.z.r0 = s.z.r0) ∧
    (writesZ123 i = false → t.z.r1 = s.z.r1 ∧ t.z.r2 = s.z.r2 ∧ t.z.r3 = s.z.r3) ∧
    (writesCursor i = false → t.pos = s.pos ∧ t.rem = s.rem) ∧
    (writesTier i = false → t.tier = s.tier) ∧
    (endsCommand i = false → t.len = s.len ∧ t.hwcap = s.hwcap ∧ t.crcOut = s.crcOut ∧ t.draws = s.draws) ∧
    (i ≠ .update → t.host = s.host) ∧
    (i.format = .s → t.mul = s.mul) ∧
    (i.format = .m → t.op = s.op ∧ t.mul.a128 = s.mul.a128 ∧ t.mul.b128 = s.mul.b128 ∧ t.mul.a512 = s.mul.a512 ∧
      t.mul.b512 = s.mul.b512) ∧
    t.straps = s.straps ∧ (∀ a, t.mem.read a = s.mem.read a)

/-! ### Tier selection -/

/-- 41_probe.md section 1: when each tier is selected, by the bits of `hwcap`, the length and the straps, with the straps' values.  `WIDE_MIN_BYTES` is 512 in
this hardware; that a strap may make it 256 is log entry 17. -/
def Obligations.SelectTierIsTheRule : Prop :=
  (∀ (p : Config.Straps) (h : U32) (r : Nat),
    (selectTier p h r = 0b10#2 ↔ h.getLsbD 3 = false ∧ h.getLsbD 0 = true ∧ minVecBytes p.minVec ≤ r ∧ h.getLsbD 1 = true ∧
      h.getLsbD 2 = true ∧ wideMinBytes p.wideMin ≤ r) ∧
    (selectTier p h r = 0b00#2 ↔ h.getLsbD 3 = true ∨ h.getLsbD 0 = false ∨ r < minVecBytes p.minVec) ∧
    (selectTier p h r = 0b01#2 ↔ h.getLsbD 3 = false ∧ h.getLsbD 0 = true ∧ minVecBytes p.minVec ≤ r ∧
      ¬(h.getLsbD 1 = true ∧ h.getLsbD 2 = true ∧ wideMinBytes p.wideMin ≤ r))) ∧
  minVecBytes .oneLane = 16 ∧ minVecBytes .eightLanes = 128 ∧ wideMinBytes .bytes512 = 512 ∧ wideMinBytes .bytes256 = 256

/-- 41_probe.md section 2: `PROBE` completes in every state, writes the selected tier and dispatches on it. -/
def Obligations.ProbeSelectsAndDispatches : Prop :=
  ∀ s : State, exec .probe s = .next { s with
    tier := selectTier s.straps s.hwcap s.rem
    op := if selectTier s.straps s.hwcap s.rem = 0b00#2 then (if s.rem > 0 then 0x02 else 0x03)
      else if selectTier s.straps s.hwcap s.rem = 0b10#2 then 0x08
      else if s.rem ≥ 128 then 0x10 else 0x13 }

/-- 41_probe.md rule R102: `PROBE` writes `TIER` and `OP` and nothing else, and its answer is fixed by `HWCAP`, `REM` and the straps, whatever
else the state holds. -/
def Obligations.ProbeIsPure : Prop :=
  ∀ s s' : State, s.hwcap = s'.hwcap → s.rem = s'.rem → s.straps = s'.straps →
    ∃ t t', exec .probe s = .next t ∧ exec .probe s' = .next t' ∧ t.tier = t'.tier ∧ t.op = t'.op ∧
      t = { s with tier := t.tier, op := t.op }

/-- 41_probe.md rule R104: what the selected tier guarantees to the operations that follow (with the strap at 512, this hardware's value);
no vector operation is about to run with `TIER = None`. -/
def Obligations.TierGuarantees : Prop :=
  (∀ s t : State, exec .probe s = .next t →
    (t.tier = 0b10#2 → s.straps.wideMin = .bytes512 → t.op = 0x08#5 ∧ 512 ≤ t.rem) ∧
    (t.tier = 0b01#2 → 16 ≤ minVecBytes s.straps.minVec ∧ minVecBytes s.straps.minVec ≤ t.rem) ∧
    (t.op = 0x13#5 → 16 ≤ t.rem) ∧ (t.op = 0x10#5 → 128 ≤ t.rem)) ∧
  (∀ s t : State, exec .wInit s = .next t → 512 ≤ s.rem → t.op = 0x09#5 ∧ 256 ≤ t.rem) ∧
  (∀ s t : State, exec .nInit4 s = .next t → 128 ≤ s.rem ∧ t.op = 0x11#5 ∧ 64 ≤ t.rem) ∧
  (∀ (s : State) (i : Instr), Inv s → decodeWord (fetchWord s) = .ok i → isVector i = true → s.tier ≠ 0b00#2)

/-- 41_probe.md rule R103 and 40_scalar.md rule R94: with `BE = 1` the tier is `None`; and whenever the tier is `None`, on every platform and for
every `hwcap`, the command completes through the scalar path with the scalar result. -/
def Obligations.ScalarPathDeliversScalarCrc : Prop :=
  (∀ (s : State) (c : Command), c.hwcap.getLsbD 3 = true → commandTier s c = 0b00#2) ∧
  (∀ (s : State) (c : Command), s.op = 0x00#5 → s.mul.word = none → s.host = some c → c.wf s.straps.lenBits = true →
    commandTier s c = 0b00#2 →
    ∃ t, CommandEndsIn s c t ∧ t.op = 0x00#5 ∧ t.crcOut = scalar c.crcIn (s.mem.bytes 0 c.len) ∧
      trace (c.len + 3) s = [.update, .probe] ++ List.replicate c.len .sbyte ++ [.done])

/-! ### The scalar engine -/

/-- 40_scalar.md rule R90: the table is built by eight shift-and-conditional-XOR steps, is linear, and holds the sample entries. -/
def Obligations.TableIsTheStandardOne : Prop :=
  (∀ i : U8, table i = (fun r : U32 => if r.getLsbD 0 = true then (r >>> 1) ^^^ 0xEDB88320#32 else r >>> 1)^[8] (i.setWidth 32)) ∧
  (∀ i : U8, table i = scalar 0 [i]) ∧
  (∀ i j : U8, table (i ^^^ j) = table i ^^^ table j) ∧
  [table 0, table 1, table 2, table 3, table 4, table 8, table 16, table 32, table 64, table 128, table 255] =
    [0x00000000#32, 0x77073096#32, 0xEE0E612C#32, 0x990951BA#32, 0x076DC419#32, 0x0EDB8832#32, 0x1DB71064#32, 0x3B6E20C8#32,
      0x76DC4190#32, 0xEDB88320#32, 0x2D02EF8D#32]

/-- 40_scalar.md section 2: `SBYTE` consumes one byte into `CRC` and goes on to `SBYTE` or `DONE`. -/
def Obligations.SbyteConsumesOneByte : Prop :=
  ∀ s : State, s.tier ≠ 0b11#2 → 1 ≤ s.rem → s.pos + 1 ≤ s.len →
    exec .sbyte s = .next { s with
      crc := table ((s.crc ^^^ (s.mem.read s.pos).setWidth 32).setWidth 8) ^^^ (s.crc >>> 8)
      pos := s.pos + 1
      rem := s.rem - 1
      op := if s.rem - 1 > 0 then 0x02 else 0x03 }

/-- 40_scalar.md rule R92: `scalar` is the fold of the `SBYTE` data step, defined for every length; running `SBYTE` n times computes it. -/
def Obligations.SbyteRunIsScalar : Prop :=
  (∀ c : U32, scalar c [] = c) ∧
  (∀ (c : U32) (b : U8) (rest : List U8),
    scalar c (b :: rest) = scalar (table ((c ^^^ b.setWidth 32).setWidth 8) ^^^ (c >>> 8)) rest) ∧
  (∀ (n : Nat) (s : State), s.op = 0x02#5 → s.mul.word = none → s.tier ≠ 0b11#2 → n ≤ s.rem → s.pos + s.rem = s.len →
    ∃ t, Sys2Proof.core.run n s = .next t ∧ t.crc = scalar s.crc (s.mem.bytes s.pos n) ∧ t.pos = s.pos + n)

/-- 40_scalar.md section 4 (a) to (c): splitting, linearity over GF(2), absorption of the seed into the first four bytes. -/
def Obligations.ScalarSplitsAndIsLinear : Prop :=
  (∀ (c : U32) (a b : List U8), scalar (scalar c a) b = scalar c (a ++ b)) ∧
  (∀ (c d : U32) (a b : List U8), a.length = b.length →
    scalar (c ^^^ d) (List.zipWith (· ^^^ ·) a b) = scalar c a ^^^ scalar d b) ∧
  (∀ (c : U32) (b0 b1 b2 b3 : U8) (rest : List U8),
    scalar c (b0 :: b1 :: b2 :: b3 :: rest) =
      scalar 0 ((b0 ^^^ c.extractLsb' 0 8) :: (b1 ^^^ c.extractLsb' 8 8) :: (b2 ^^^ c.extractLsb' 16 8) ::
        (b3 ^^^ c.extractLsb' 24 8) :: rest))

open Polynomial in
/-- 40_scalar.md section 4 (d): read as polynomials over GF(2) in the reflected order of 20_memory.md section 2, `scalar(c, S)` is
`(C(x) * x^(8*len(S)) + M(x) * x^32) mod P(x)`. -/
def Obligations.ScalarIsPolynomialRemainder : Prop :=
  ∀ (c : U32) (m : List U8),
    (∑ i ∈ Finset.range 32, if (scalar c m).getLsbD i = true then (X : (ZMod 2)[X]) ^ (31 - i) else 0) =
      ((∑ i ∈ Finset.range 32, if c.getLsbD i = true then (X : (ZMod 2)[X]) ^ (31 - i) else 0) * X ^ (8 * m.length) +
        (∑ j ∈ Finset.range m.length, ∑ i ∈ Finset.range 8,
          if (m.getD j 0).getLsbD i = true then (X : (ZMod 2)[X]) ^ (8 * m.length - 1 - (8 * j + i)) else 0) * X ^ 32) %ₘ
      (X ^ 32 + X ^ 26 + X ^ 23 + X ^ 22 + X ^ 16 + X ^ 12 + X ^ 11 + X ^ 10 + X ^ 8 + X ^ 7 + X ^ 5 + X ^ 4 + X ^ 2 + X + 1)

/-! ### The multiplier -/

open Polynomial in
/-- 42_clmul.md rule R110: bit k of the product is the XOR of `a[i] & b[j]` over i + j = k; the product is the XOR of the shifted copies of `a`; in
polynomial terms it is the product polynomial. -/
def Obligations.ClmulIsCarryLessProduct : Prop :=
  ∀ a b : U64,
    (∀ k < 128, (clmul64 a b).getLsbD k =
      ((List.range 64).map fun i => decide (i ≤ k) && (a.getLsbD (k - i) && b.getLsbD i)).foldl xor false) ∧
    (clmul64 a b = ((List.range 64).map fun i => if b.getLsbD i = true then (a.setWidth 128) <<< i else 0#128).foldl (· ^^^ ·) 0#128) ∧
    ((∑ k ∈ Finset.range 128, if (clmul64 a b).getLsbD k = true then (X : (ZMod 2)[X]) ^ k else 0) =
      (∑ i ∈ Finset.range 64, if a.getLsbD i = true then (X : (ZMod 2)[X]) ^ i else 0) *
        (∑ j ∈ Finset.range 64, if b.getLsbD j = true then (X : (ZMod 2)[X]) ^ j else 0))

/-- 42_clmul.md rule R111 (a) to (f): the laws of `clmul64`. -/
def Obligations.ClmulLaws : Prop :=
  (∀ a b : U64, clmul64 a b = clmul64 b a) ∧
  (∀ a b c : U64, clmul64 (a ^^^ c) b = clmul64 a b ^^^ clmul64 c b) ∧
  (∀ a : U64, clmul64 a 0 = 0 ∧ clmul64 a 1 = a.setWidth 128 ∧ ∀ k < 64, clmul64 a (1#64 <<< k) = (a.setWidth 128) <<< k) ∧
  (∀ (a b : U64) (m n : Nat), 1 ≤ m → 1 ≤ n → a.toNat < 2 ^ m → b.toNat < 2 ^ n → (clmul64 a b).toNat < 2 ^ (m + n - 1)) ∧
  (∀ a b : U64, (clmul64 a b).getLsbD 127 = false ∧ (b.toNat < 2 ^ 33 → (clmul64 a b).toNat < 2 ^ 96)) ∧
  (clmul64 3 3 = 5 ∧ clmul64 0xFFFFFFFFFFFFFFFF 0xFFFFFFFFFFFFFFFF = 0x55555555555555555555555555555555 ∧
    clmul64 0x8000000000000000 0x8000000000000000 = 0x40000000000000000000000000000000) ∧
  (∀ a b : U64, (clmul64 a b).reverse = clmul64 a.reverse b.reverse <<< 1)

/-- 42_clmul.md section 2: each 128-bit command multiplies the halves its suffix names and changes nothing but the port's product and word
(the port is the model's, log entry 7). -/
def Obligations.NarrowMultiplierCommands : Prop :=
  ∀ s : State, s.straps.platform.nclmul = true →
    exec .clmulLL s = .next { s with
      mul := { s.mul with
        word := none
        dst128 := clmul64 (s.mul.a128.extractLsb' 0 64) (s.mul.b128.extractLsb' 0 64) } } ∧
    exec .clmulHL s = .next { s with
      mul := { s.mul with
        word := none
        dst128 := clmul64 (s.mul.a128.extractLsb' 64 64) (s.mul.b128.extractLsb' 0 64) } } ∧
    exec .clmulLH s = .next { s with
      mul := { s.mul with
        word := none
        dst128 := clmul64 (s.mul.a128.extractLsb' 0 64) (s.mul.b128.extractLsb' 64 64) } } ∧
    exec .clmulHH s = .next { s with
      mul := { s.mul with
        word := none
        dst128 := clmul64 (s.mul.a128.extractLsb' 64 64) (s.mul.b128.extractLsb' 64 64) } }

/-- 42_clmul.md section 3: each 512-bit command forms four independent products of the halves its suffix names, one per sub-lane, and changes
nothing but the port's product and word (log entry 7). -/
def Obligations.WideMultiplierCommands : Prop :=
  ∀ s : State, s.straps.platform.wclmul = true → s.straps.platform.v512 = true →
    (∃ d : U512, exec .vclmulLL s = .next { s with mul := { s.mul with word := none, dst512 := d } } ∧
      ∀ j < 4, d.extractLsb' (128 * j) 128 =
        clmul64 (s.mul.a512.extractLsb' (128 * j) 64) (s.mul.b512.extractLsb' (128 * j) 64)) ∧
    (∃ d : U512, exec .vclmulHL s = .next { s with mul := { s.mul with word := none, dst512 := d } } ∧
      ∀ j < 4, d.extractLsb' (128 * j) 128 =
        clmul64 (s.mul.a512.extractLsb' (128 * j + 64) 64) (s.mul.b512.extractLsb' (128 * j) 64)) ∧
    (∃ d : U512, exec .vclmulLH s = .next { s with mul := { s.mul with word := none, dst512 := d } } ∧
      ∀ j < 4, d.extractLsb' (128 * j) 128 =
        clmul64 (s.mul.a512.extractLsb' (128 * j) 64) (s.mul.b512.extractLsb' (128 * j + 64) 64)) ∧
    (∃ d : U512, exec .vclmulHH s = .next { s with mul := { s.mul with word := none, dst512 := d } } ∧
      ∀ j < 4, d.extractLsb' (128 * j) 128 =
        clmul64 (s.mul.a512.extractLsb' (128 * j + 64) 64) (s.mul.b512.extractLsb' (128 * j + 64) 64))

/-- 42_clmul.md section 3, corner cases: no bit of one sub-lane influences another, and bit 127 of every sub-lane of a product is 0. -/
def Obligations.SubLanesAreIndependent : Prop :=
  ∀ (ha hb : Half) (a a' b b' : U512), ∀ j < 4, lane a j = lane a' j → lane b j = lane b' j →
    lane (vclmul ha hb a b) j = lane (vclmul ha hb a' b') j ∧ (lane (vclmul ha hb a b) j).getLsbD 127 = false

/-- 42_clmul.md rule R120: the fold is the low product, the high product and the data, XORed at full width in any order; the worked example. -/
def Obligations.Fold128IsTheFoldAndXorPattern : Prop :=
  (∀ acc data k : U128,
    fold128 acc data k = clmul64 (acc.extractLsb' 0 64) (k.extractLsb' 0 64) ^^^
      clmul64 (acc.extractLsb' 64 64) (k.extractLsb' 64 64) ^^^ data ∧
    fold128 acc data k = data ^^^ clmul64 (acc.extractLsb' 64 64) (k.extractLsb' 64 64) ^^^
      clmul64 (acc.extractLsb' 0 64) (k.extractLsb' 0 64)) ∧
  fold128 0xFEDCBA98765432100123456789ABCDEF 0x1F1E1D1C1B1A19181716151413121110 (rom 2) = 0x1F1E1D1C5EF03F32C82676917637AB40

/-- 42_clmul.md rule R121: the wide fold is the narrow fold in each sub-lane, with one constant pair for all four. -/
def Obligations.Fold512IsFold128PerLane : Prop :=
  ∀ (acc data : U512) (k : U128), ∀ j < 4, lane (fold512 acc data k) j = fold128 (lane acc j) (lane data j) k

/-- 42_clmul.md rule R122: every `K(n)` has at most 33 bits; the fold pairs are those of distances 2048, 512 and 128; the reduction constants are
`K(96)`, `K(64)`, `P'` and `MU'`, the reversals of the polynomial and of the quotient of x^64 by it. -/
def Obligations.RomComesFromThePolynomial : Prop :=
  (∀ n : Nat, (foldConst n).toNat < 2 ^ 33 ∧ foldConst n = ((xPowMod n).reverse.setWidth 64) <<< 1) ∧
  (xPowMod 0 = 1 ∧ ∀ n : Nat, xPowMod (n + 1) =
    if (xPowMod n).getLsbD 31 = true then (xPowMod n <<< 1) ^^^ 0x04C11DB7#32 else xPowMod n <<< 1) ∧
  (∀ k : Fin 6, ∀ d : Nat, (k.val, d) ∈ [(0, 2048), (1, 512), (2, 128)] →
    half .lo (rom k) = foldConst (d + 32) ∧ half .hi (rom k) = foldConst (d - 32)) ∧
  (half .hi (rom 2) = foldConst 96 ∧ half .lo (rom 3) = foldConst 64) ∧
  (half .lo (rom 4) = ((0x104C11DB7#33).reverse.setWidth 64)) ∧
  (∃ (q r : BitVec 33), half .hi (rom 4) = q.reverse.setWidth 64 ∧ r.toNat < 2 ^ 32 ∧
    clmul64 (q.setWidth 64) 0x104C11DB7 ^^^ r.setWidth 128 = 1#128 <<< 64)

/-- 42_clmul.md rule R124, the fold law: folding by d bits and then adding `D` has the CRC of `A`, the zero bytes in between and `D`; and any pair whose
elements have other values modulo `P` breaks it. -/
def Obligations.FoldLaw : Prop :=
  ∀ (k : Fin 6) (d : Nat), (k.val, d) ∈ [(0, 2048), (1, 512), (2, 128)] →
    (∀ a data : U128, laneCrc (fold128 a data (rom k)) =
      scalar 0 (le16 a ++ List.replicate (d / 8 - 16) 0 ++ le16 data)) ∧
    (∀ p : U128, laneCrc ((half .lo p).setWidth 128) ≠ laneCrc ((half .lo (rom k)).setWidth 128) ∨
        laneCrc ((half .hi p).setWidth 128) ≠ laneCrc ((half .hi (rom k)).setWidth 128) →
      ∃ a data : U128, laneCrc (fold128 a data p) ≠ scalar 0 (le16 a ++ List.replicate (d / 8 - 16) 0 ++ le16 data))

/-! ### The wide tier -/

/-- 43_wide_fold.md section 2: `W.INIT` loads four lanes, absorbs `CRC` into bits 31:0 of the first, and completes whenever its precondition holds. -/
def Obligations.WInitLoadsFourLanes : Prop :=
  ∀ s : State, s.tier ≠ 0b11#2 → s.tier ≠ 0b00#2 → hasFeature s.straps.platform .wideLanes = true → 256 ≤ s.rem →
    s.pos + 256 ≤ s.len →
    exec .wInit s = .next { s with
      z := ⟨.valid (memRead64 s s.pos ^^^ s.crc.setWidth 512), .valid (memRead64 s (s.pos + 64)),
        .valid (memRead64 s (s.pos + 128)), .valid (memRead64 s (s.pos + 192))⟩
      pos := s.pos + 256
      rem := s.rem - 256
      op := if s.rem - 256 ≥ 256 then 0x09 else 0x0A }

/-- 43_wide_fold.md section 2: `W.FOLD4` folds each accumulator with the lane 256 bytes after the one it last absorbed, by `ROM[0]`. -/
def Obligations.WFold4FoldsEachAccumulator : Prop :=
  ∀ (s : State) (z0 z1 z2 z3 : U512), s.tier ≠ 0b11#2 → s.tier ≠ 0b00#2 → hasFeature s.straps.platform .wideLanes = true →
    256 ≤ s.rem → s.pos + 256 ≤ s.len → s.z = ⟨.valid z0, .valid z1, .valid z2, .valid z3⟩ →
    exec .wFold4 s = .next { s with
      z := ⟨.valid (fold512 z0 (memRead64 s s.pos) (rom 0)), .valid (fold512 z1 (memRead64 s (s.pos + 64)) (rom 0)),
        .valid (fold512 z2 (memRead64 s (s.pos + 128)) (rom 0)), .valid (fold512 z3 (memRead64 s (s.pos + 192)) (rom 0))⟩
      pos := s.pos + 256
      rem := s.rem - 256
      op := if s.rem - 256 ≥ 256 then 0x09 else 0x0A }

/-- 43_wide_fold.md section 2: `W.COLLAPSE` folds the four accumulators into `Z[0]`, in order, by `ROM[1]`, and leaves the other three. -/
def Obligations.WCollapseFoldsIntoZ0 : Prop :=
  ∀ (s : State) (z0 z1 z2 z3 : U512), s.tier ≠ 0b11#2 → s.tier ≠ 0b00#2 → hasFeature s.straps.platform .wideLanes = true →
    s.z = ⟨.valid z0, .valid z1, .valid z2, .valid z3⟩ →
    exec .wCollapse s = .next { s with
      z := ⟨.valid (fold512 (fold512 (fold512 z0 z1 (rom 1)) z2 (rom 1)) z3 (rom 1)), .valid z1, .valid z2, .valid z3⟩
      op := if s.rem ≥ 64 then 0x0B else 0x0C }

/-- 43_wide_fold.md section 2: `W.FOLD1` folds the next lane into `Z[0]` by `ROM[1]`. -/
def Obligations.WFold1FoldsOneLane : Prop :=
  ∀ (s : State) (z0 : U512), s.tier ≠ 0b11#2 → s.tier ≠ 0b00#2 → hasFeature s.straps.platform .wideLanes = true →
    64 ≤ s.rem → s.pos + 64 ≤ s.len → s.z.r0 = .valid z0 →
    exec .wFold1 s = .next { s with
      z := { s.z with r0 := .valid (fold512 z0 (memRead64 s s.pos) (rom 1)) }
      pos := s.pos + 64
      rem := s.rem - 64
      op := if s.rem - 64 ≥ 64 then 0x0B else 0x0C }

/-- 43_wide_fold.md section 2: `W.HRED` folds the sub-lanes of `Z[0]`, 0 first and 3 last, into `X[0]` by `ROM[2]` and hands over to `R.FOLD64`. -/
def Obligations.WHredFoldsSubLanes : Prop :=
  ∀ (s : State) (z0 : U512), s.tier ≠ 0b11#2 → s.tier ≠ 0b00#2 → hasFeature s.straps.platform .wideLanes = true →
    hasFeature s.straps.platform .narrowLanes = true → s.z.r0 = .valid z0 →
    exec .wHred s = .next { s with
      x := { s.x with r0 := .valid (fold128 (fold128 (fold128 (lane z0 0) (lane z0 1) (rom 2)) (lane z0 2) (rom 2)) (lane z0 3) (rom 2)) }
      op := 0x18 }

/-! ### The narrow tier -/

/-- 44_narrow_fold.md section 2: `N.INIT4` loads four lanes and absorbs `CRC` into bits 31:0 of the first. -/
def Obligations.NInit4LoadsFourLanes : Prop :=
  ∀ s : State, s.tier ≠ 0b11#2 → s.tier ≠ 0b00#2 → hasFeature s.straps.platform .narrowLanes = true → 128 ≤ s.rem →
    s.pos + 64 ≤ s.len →
    exec .nInit4 s = .next { s with
      x := ⟨.valid (memRead16 s s.pos ^^^ s.crc.setWidth 128), .valid (memRead16 s (s.pos + 16)),
        .valid (memRead16 s (s.pos + 32)), .valid (memRead16 s (s.pos + 48))⟩
      pos := s.pos + 64
      rem := s.rem - 64
      op := 0x11 }

/-- 44_narrow_fold.md section 2: `N.FOLD4` folds each accumulator with the lane 64 bytes after the one it last absorbed, by `ROM[1]`. -/
def Obligations.NFold4FoldsEachAccumulator : Prop :=
  ∀ (s : State) (x0 x1 x2 x3 : U128), s.tier ≠ 0b11#2 → s.tier ≠ 0b00#2 → hasFeature s.straps.platform .narrowLanes = true →
    64 ≤ s.rem → s.pos + 64 ≤ s.len → s.x = ⟨.valid x0, .valid x1, .valid x2, .valid x3⟩ →
    exec .nFold4 s = .next { s with
      x := ⟨.valid (fold128 x0 (memRead16 s s.pos) (rom 1)), .valid (fold128 x1 (memRead16 s (s.pos + 16)) (rom 1)),
        .valid (fold128 x2 (memRead16 s (s.pos + 32)) (rom 1)), .valid (fold128 x3 (memRead16 s (s.pos + 48)) (rom 1))⟩
      pos := s.pos + 64
      rem := s.rem - 64
      op := if s.rem - 64 ≥ 64 then 0x11 else 0x12 }

/-- 44_narrow_fold.md section 2: `N.COLLAPSE` folds the four accumulators into `X[0]`, in order, by `ROM[2]`, and leaves the other three. -/
def Obligations.NCollapseFoldsIntoX0 : Prop :=
  ∀ (s : State) (x0 x1 x2 x3 : U128), s.tier ≠ 0b11#2 → s.tier ≠ 0b00#2 → hasFeature s.straps.platform .narrowLanes = true →
    s.x = ⟨.valid x0, .valid x1, .valid x2, .valid x3⟩ →
    exec .nCollapse s = .next { s with
      x := ⟨.valid (fold128 (fold128 (fold128 x0 x1 (rom 2)) x2 (rom 2)) x3 (rom 2)), .valid x1, .valid x2, .valid x3⟩
      op := if s.rem ≥ 16 then 0x14 else 0x18 }

/-- 44_narrow_fold.md section 2: `N.INIT1` loads one lane and absorbs `CRC` into its bits 31:0; `X[1..3]` are left as they are. -/
def Obligations.NInit1LoadsOneLane : Prop :=
  ∀ s : State, s.tier ≠ 0b11#2 → s.tier ≠ 0b00#2 → hasFeature s.straps.platform .narrowLanes = true → 16 ≤ s.rem →
    s.pos + 16 ≤ s.len →
    exec .nInit1 s = .next { s with
      x := { s.x with r0 := .valid (memRead16 s s.pos ^^^ s.crc.setWidth 128) }
      pos := s.pos + 16
      rem := s.rem - 16
      op := if s.rem - 16 ≥ 16 then 0x14 else 0x18 }

/-- 44_narrow_fold.md section 2: `N.FOLD1` folds the next lane into `X[0]` by `ROM[2]`. -/
def Obligations.NFold1FoldsOneLane : Prop :=
  ∀ (s : State) (x0 : U128), s.tier ≠ 0b11#2 → s.tier ≠ 0b00#2 → hasFeature s.straps.platform .narrowLanes = true →
    16 ≤ s.rem → s.pos + 16 ≤ s.len → s.x.r0 = .valid x0 →
    exec .nFold1 s = .next { s with
      x := { s.x with r0 := .valid (fold128 x0 (memRead16 s s.pos) (rom 2)) }
      pos := s.pos + 16
      rem := s.rem - 16
      op := if s.rem - 16 ≥ 16 then 0x14 else 0x18 }

/-! ### The reduction -/

/-- 45_reduce.md section 2: `R.FOLD64` and `R.BARRETT`, with their intermediate values.  That `R.BARRETT` completes on any valid `X[0]`, whoever wrote it, is
the model's reading (log entry 9). -/
def Obligations.ReductionOperationsComplete : Prop :=
  ∀ (s : State) (v : U128), s.tier ≠ 0b11#2 → s.tier ≠ 0b00#2 → hasFeature s.straps.platform .narrowLanes = true →
    s.x.r0 = .valid v →
    (∀ t1 y t2 : U128, t1 = clmul64 (v.extractLsb' 0 64) (half .hi (rom 2)) → y = (v >>> 64) ^^^ t1 →
      t2 = clmul64 ((y &&& rom 5).extractLsb' 0 64) (half .lo (rom 3)) →
      exec .rFold64 s = .next { s with x := { s.x with r0 := .valid (t2 ^^^ (y >>> 32)) }, op := 0x19 }) ∧
    (∀ t1 t2 : U128, t1 = clmul64 ((v &&& rom 5).extractLsb' 0 64) (half .hi (rom 4)) →
      t2 = clmul64 ((t1 &&& rom 5).extractLsb' 0 64) (half .lo (rom 4)) →
      exec .rBarrett s = .next { s with
        x := { s.x with r0 := .valid (v ^^^ t2) }
        crc := (v ^^^ t2).extractLsb' 32 32
        op := if s.rem > 0 then 0x02 else 0x03 })

/-- 45_reduce.md section 2, corner cases: the first reduction leaves bits 127:64 zero with its intermediates below 2^96 and 2^64, the second leaves
bits 31:0 zero, and zero reduces to zero. -/
def Obligations.ReductionStaysInLowHalf : Prop :=
  (∀ v : U128, (clmul .lo .hi v (rom 2)).toNat < 2 ^ 96 ∧ (foldTo96 v).toNat < 2 ^ 96 ∧
    (clmul .lo .lo (foldTo96 v &&& rom 5) (rom 3)).toNat < 2 ^ 64 ∧ (foldTo64 v).extractLsb' 64 64 = 0#64) ∧
  (∀ v : U128, (barrett v).extractLsb' 0 32 = 0#32) ∧
  resultLane (barrett 0) = 0

/-- 45_reduce.md rule R173, the reduction law (for every value of `X[0]`): `R.FOLD64` then `R.BARRETT` leave in `CRC` the scalar CRC, from zero, of the sixteen bytes of
`X[0]`; so where those stand for the bytes consumed from `crcIn`, `CRC` is the CRC of the bytes consumed. -/
def Obligations.ReductionLaw : Prop :=
  ∀ (s : State) (v : U128), s.tier ≠ 0b11#2 → s.tier ≠ 0b00#2 → hasFeature s.straps.platform .narrowLanes = true →
    s.x.r0 = .valid v →
    ∃ t u, exec .rFold64 s = .next t ∧ exec .rBarrett t = .next u ∧ u.crc = scalar 0 (le16 v) ∧
      ∀ crcIn : U32, scalar 0 (le16 v) = scalar crcIn (s.mem.bytes 0 s.pos) → u.crc = scalar crcIn (u.mem.bytes 0 u.pos)

/-! ### The command's two ends -/

/-- 46_orchestrator.md section 2: in `IDLE`, with a command presented that fits the counters, `UPDATE` accepts it. (`CRC_OUT` and `TIER` become
unspecified, rule R35, so nothing is said of them.) -/
def Obligations.UpdateAcceptsTheCommand : Prop :=
  ∀ (s : State) (c : Command), s.op = 0x00#5 → s.host = some c → c.wf s.straps.lenBits = true →
    ∃ t, exec .update s = .next t ∧ t.crc = c.crcIn ∧ t.len = c.len ∧ t.pos = 0 ∧ t.rem = c.len ∧ t.hwcap = c.hwcap ∧
      t.x = ⟨.unwritten, .unwritten, .unwritten, .unwritten⟩ ∧ t.z = ⟨.unwritten, .unwritten, .unwritten, .unwritten⟩ ∧
      t.op = 0x01#5 ∧ t.host = none ∧ t.straps = s.straps ∧ t.mul = s.mul ∧ ∀ a, t.mem.read a = s.mem.read a

/-- 46_orchestrator.md section 2: with no command presented the engine stays in `IDLE` and no state changes; while `OP` is not `IDLE` the
interface accepts no command, and `UPDATE` called there has no move (log entry 12).  In `IDLE` a command presented stands in `host` and its bytes in the buffer,
the transport being the model's (log entry 6). -/
def Obligations.UpdateNeedsIdleAndACommand : Prop :=
  (∀ s : State, s.op = 0x00#5 → s.host = none → exec .update s = .next s ∧ (s.mul.word = none → step s = .next s)) ∧
  (∀ (s : State) (crcIn : U32) (data : List U8) (hwcap : U32), s.op ≠ 0x00#5 →
    s.present crcIn data hwcap = s ∧ exec .update s = .refused .commandWhileBusy) ∧
  (∀ (s : State) (crcIn : U32) (data : List U8) (hwcap : U32), s.op = 0x00#5 →
    (s.present crcIn data hwcap).host = some ⟨crcIn, data.length, hwcap⟩ ∧
    (s.present crcIn data hwcap).mem.bytes 0 data.length = data)

/-- 46_orchestrator.md section 2: with no byte left, `DONE` delivers `CRC` in `CRC_OUT` and returns to `IDLE` with every accumulator unwritten.
(`POS`, `REM`, `LEN`, `HWCAP` and `TIER` become unspecified, rule R35, so nothing is said of them.) -/
def Obligations.DoneDeliversTheResult : Prop :=
  ∀ s : State, s.tier ≠ 0b11#2 → s.rem = 0 →
    ∃ t, exec .done s = .next t ∧ t.crcOut = s.crc ∧ t.crc = s.crc ∧ t.op = 0x00#5 ∧
      t.x = ⟨.unwritten, .unwritten, .unwritten, .unwritten⟩ ∧ t.z = ⟨.unwritten, .unwritten, .unwritten, .unwritten⟩ ∧
      t.straps = s.straps ∧ t.mul = s.mul ∧ t.host = s.host ∧ ∀ a, t.mem.read a = s.mem.read a

/-! ### Preconditions and stops -/

/-- 10_state.md rule R23: `UPDATE` and `DONE` mark all eight accumulators unwritten; an operation that writes one makes it valid; one that reads
an unwritten one has no next state; the sequence never reads one. -/
def Obligations.ValidityMarks : Prop :=
  (∀ (s t : State) (c : Command), s.host = some c → exec .update s = .next t → t.x = .cleared 128 ∧ t.z = .cleared 512) ∧
  (∀ s t : State, exec .done s = .next t → t.x = .cleared 128 ∧ t.z = .cleared 512) ∧
  (∀ (i : Instr) (s t : State), exec i s = .next t → endsCommand i = false →
    (writesX0 i = true → t.x.r0.isValid = true) ∧ (writesX123 i = true → t.x.allValid = true) ∧
    (writesZ0 i = true → t.z.r0.isValid = true) ∧ (writesZ123 i = true → t.z.allValid = true)) ∧
  (∀ (i : Instr) (s : State), accumulatorsReady i s = false → ∀ t, exec i s ≠ .next t) ∧
  (∀ (i : Instr) (s : State), accumulatorsReady i s = false → s.tier ≠ 0b11#2 → s.tier ≠ 0b00#2 →
    (∀ f ∈ featuresNeeded i, hasFeature s.straps.platform f = true) → bytesRequired i ≤ s.rem →
    (bytesRead i ≠ 0 → s.pos + bytesRead i ≤ s.len) → ∃ r, exec i s = .fault (.unwrittenAccumulator r)) ∧
  (∀ s : State, Inv s → ∀ r, step s ≠ .fault r)

/-- 60_exceptions.md section 1 with each operation's precondition: an operation completes exactly when its precondition holds.  The precondition rests in part on
rows of the model: which operation needs which feature (log entry 4), `R.BARRETT` asks only validity (9), `DONE` with bytes left (10), `TIER = 0b11` for `SBYTE` and
`DONE` too (11), `UPDATE` in `IDLE` only (12), the length of a command (13), a read past the end (18), no other test of `TIER` or `OP` (19). -/
def Obligations.CompletesExactlyOnPrecondition : Prop :=
  ∀ (i : Instr) (s : State), (∃ t, exec i s = .next t) ↔ Precondition i s

/-- 60_exceptions.md section 1 (a) to (c): which violation is refused under which name.  The model's own: the order of the tests (log entry 8), which operation
needs which feature (log entry 4), `DONE` with bytes left (log entry 10), the reserved `TIER` of `SBYTE` and `DONE` (log entry 11), a read past the end where the
cursor does not add up (log entry 18). -/
def Obligations.ViolationsAreRefusedByName : Prop :=
  ∀ (i : Instr) (s : State),
    (isVector i = true → s.tier = 0b00#2 → exec i s = .refused (.preconditionViolation .tierNone)) ∧
    (runsAfterProbe i = true → s.tier = 0b11#2 → exec i s = .refused .reservedTier) ∧
    ((isVector i = true → s.tier ≠ 0b11#2 ∧ s.tier ≠ 0b00#2) → (∃ f ∈ featuresNeeded i, hasFeature s.straps.platform f = false) →
      exec i s = .refused (.preconditionViolation .featureAbsent)) ∧
    ((runsAfterProbe i = true → s.tier ≠ 0b11#2) → (isVector i = true → s.tier ≠ 0b00#2) →
      (∀ f ∈ featuresNeeded i, hasFeature s.straps.platform f = true) →
      (s.rem < bytesRequired i → exec i s = .refused (.preconditionViolation .bufferShort)) ∧
      (bytesRead i ≠ 0 → bytesRequired i ≤ s.rem → s.len < s.pos + bytesRead i →
        exec i s = .refused (.preconditionViolation .readPastEnd)) ∧
      (i = .done → s.rem ≠ 0 → exec i s = .refused (.preconditionViolation .bytesLeft)))

/-! ### The whole machine -/

/-- 10_state.md section 11 and 70_reset_and_hazards.md section 1, the values the spec gives at reset: `IDLE`, every accumulator unwritten. -/
def Obligations.ResetIsIdleAndUnwritten : Prop :=
  State.reset.op = 0x00#5 ∧ State.reset.x = ⟨.unwritten, .unwritten, .unwritten, .unwritten⟩ ∧
    State.reset.z = ⟨.unwritten, .unwritten, .unwritten, .unwritten⟩

/-- 70_reset_and_hazards.md section 1: a reset of a running instance leaves `IDLE`, every accumulator unwritten and the straps; the host can then present
the whole command again. That a reset is an act of the host on the state is log entry 16. -/
def Obligations.PlatformResetAbandonsTheCommand : Prop :=
  ∀ s : State, s.platformReset.op = 0x00#5 ∧ s.platformReset.x = .cleared 128 ∧ s.platformReset.z = .cleared 512 ∧
    s.platformReset.straps = s.straps ∧
    ∀ (crcIn : U32) (data : List U8) (hwcap : U32),
      lenFits s.straps.lenBits data.length = true → Truthful s.straps.platform hwcap →
      CommandReady (s.platformReset.present crcIn data hwcap) ⟨crcIn, data.length, hwcap⟩

/-- The reset state meets the invariant. The reset values that are the model's choice are in log entries 1 and 3. -/
def Obligations.ResetMeetsInvariant : Prop := Inv State.reset

/-- 10_state.md section 4, 41_probe.md section 3, 46_orchestrator.md section 3: every step keeps the invariant of the sequence. -/
def Obligations.StepKeepsInvariant : Prop :=
  ∀ s t : State, Inv s → step s = .next t → Inv t

/-- 60_exceptions.md section 1 ("None of (a), (b), (d) can occur through UPDATE") and 46_orchestrator.md section 4: where the invariant holds,
the machine goes on. -/
def Obligations.InvariantStatesNeverStop : Prop :=
  ∀ s : State, Inv s → ∃ t, step s = .next t

/-- 43_wide_fold.md section 3 and 44_narrow_fold.md section 3: from the acceptance of a command on, through every step, the accumulators stand for the
bytes consumed so far; and `DONE` delivers the CRC of the whole buffer. -/
def Obligations.AccumulatorsStandForConsumedBytes : Prop :=
  (∀ (s t : State) (c : Command), s.host = some c → exec .update s = .next t → StandsFor c.crcIn t) ∧
  (∀ (crcIn : U32) (s t : State), Inv s → StandsFor crcIn s → s.op ≠ 0x00#5 → s.op ≠ 0x03#5 → step s = .next t → StandsFor crcIn t) ∧
  (∀ (crcIn : U32) (s t : State), Inv s → StandsFor crcIn s → s.op = 0x03#5 → step s = .next t →
    t.crcOut = scalar crcIn (s.mem.bytes 0 s.len))

/-- 46_orchestrator.md rule R195, the contract: for every `crc_in`, every buffer of every length, every `hwcap` and every strap setting, the command
ends with `CRC_OUT = scalar(crc_in, data)`.  `CommandReady` is an idle machine with the command presented; its last clause, that `hwcap` is true of the
platform (the host's duty of rules R204 and R247, through the platform of log entry 4), every `hwcap` meets on a little-endian platform that has all the features;
that the length fits `LEN_BITS` is decision D18 (log entry 13). -/
def Obligations.CommandDeliversScalarCrc : Prop :=
  ∀ (s : State) (c : Command), CommandReady s c →
    ∃ t, CommandEndsIn s c t ∧ t.op = 0x00#5 ∧ t.crcOut = scalar c.crcIn (s.mem.bytes 0 c.len)

/-- 46_orchestrator.md section 4: the operations a command executes, in order, as a function of `LEN` and `TIER`, and the bytes consumed
when `R.BARRETT` is reached (the table of rule R202); and the bound on the number of operations (rule R203).  `CommandReady` asks for a `hwcap` that is true of
the platform (log entry 4). -/
def Obligations.CommandRunsItsSequence : Prop :=
  ∀ (s : State) (c : Command), CommandReady s c →
    trace (operationCount (commandTier s c) c.len) s = operationSequence (commandTier s c) c.len ∧
    operationCount (commandTier s c) c.len ≤ c.len + 8 ∧
    (∀ (n : Nat) (t : State), n < operationCount (commandTier s c) c.len → Sys2Proof.core.run n s = .next t → t.op = 0x19#5 →
      t.pos = if commandTier s c = 0b10#2 then 64 * (c.len / 64) else 16 * (c.len / 16)) ∧
    ∃ t, CommandEndsIn s c t ∧ t.op = 0x00#5

/-- 46_orchestrator.md rule R196, splitting invariance, whatever tiers and platforms the three commands take (each `hwcap` true of its platform, the host's duty of
rules R204 and R247). -/
def Obligations.SplittingInvariance : Prop :=
  ∀ (s1 s2 s t1 t2 t : State) (c1 c2 c : Command), CommandReady s1 c1 → CommandReady s2 c2 → CommandReady s c →
    CommandEndsIn s1 c1 t1 → CommandEndsIn s2 c2 t2 → CommandEndsIn s c t →
    c1.crcIn = c.crcIn → c2.crcIn = t1.crcOut →
    s.mem.bytes 0 c.len = s1.mem.bytes 0 c1.len ++ s2.mem.bytes 0 c2.len →
    t2.crcOut = t.crcOut

/-- 46_orchestrator.md section 5 (tier equivalence, determinism): the result is the same for the same `crc_in` and the same bytes, whatever `hwcap`, straps,
platform and earlier state (each `hwcap` true of its platform, log entry 4). -/
def Obligations.TierEquivalence : Prop :=
  ∀ (s s' t t' : State) (c c' : Command), CommandReady s c → CommandReady s' c' → CommandEndsIn s c t → CommandEndsIn s' c' t' →
    c.crcIn = c'.crcIn → c.len = c'.len → s.mem.bytes 0 c.len = s'.mem.bytes 0 c'.len → t.crcOut = t'.crcOut

/-- 10_state.md section 11: no rule reads an unspecified register.  Two idle machines with the same command, straps, buffer and multiplier port agree
after `UPDATE` and `PROBE` on everything but `CRC_OUT`, still unspecified, and the count of free values (log entry 2), whatever `CRC`, `CRC_OUT`, `POS`, `REM`,
`LEN`, `HWCAP`, `TIER` and the accumulators held; from there on no operation before `DONE` depends on those two, and `DONE` does not depend on
`CRC_OUT`, which it writes. -/
def Obligations.UnspecifiedRegistersAreNeverRead : Prop :=
  (∀ (s s' : State) (c : Command), s.op = 0x00#5 → s'.op = 0x00#5 → s.host = some c → s'.host = some c → s.straps = s'.straps →
    s.mem = s'.mem → s.mul = s'.mul → s.mul.word = none → c.wf s.straps.lenBits = true →
    ∃ t t', Sys2Proof.core.run 2 s = .next t ∧ Sys2Proof.core.run 2 s' = .next t' ∧
      t = { t' with crcOut := t.crcOut, draws := t.draws }) ∧
  (∀ (i : Instr) (s : State) (v : U32) (d : Nat), i ≠ .update → i ≠ .done →
    exec i { s with crcOut := v, draws := d } = mapNext (fun t => { t with crcOut := v, draws := d }) (exec i s)) ∧
  (∀ (s : State) (v : U32), exec .done { s with crcOut := v } = exec .done s)

/-- 60_exceptions.md section 5 (debug): `DEBUG_ASSERT` changes no outcome; and where the invariant holds no assertion fails. -/
def Obligations.DebugAssertHasNoEffect : Prop :=
  (∀ (s : State) (b : Bool), step { s with straps := { s.straps with debugAssert := b } } =
    mapNext (fun t => { t with straps := { t.straps with debugAssert := b } }) (step s)) ∧
  (∀ (s : State) (i : Instr), Inv s → decodeWord (fetchWord s) = .ok i → Precondition i s)
end

