-- ==== Sys2Proof/Laws/State.lean ====
section
/-! SUPPORT. One lemma per field per named update of the state, so that no proof unfolds a record update. -/

namespace Sys2Proof.Machine

variable (s : State)

/-! ### `State.setCrc` -/

@[simp] theorem State.setCrc_crc (v : U32) : (s.setCrc v).crc = v := rfl
@[simp] theorem State.setCrc_x (v : U32) : (s.setCrc v).x = s.x := rfl
@[simp] theorem State.setCrc_z (v : U32) : (s.setCrc v).z = s.z := rfl
@[simp] theorem State.setCrc_pos (v : U32) : (s.setCrc v).pos = s.pos := rfl
@[simp] theorem State.setCrc_rem (v : U32) : (s.setCrc v).rem = s.rem := rfl
@[simp] theorem State.setCrc_op (v : U32) : (s.setCrc v).op = s.op := rfl
@[simp] theorem State.setCrc_tier (v : U32) : (s.setCrc v).tier = s.tier := rfl
@[simp] theorem State.setCrc_hwcap (v : U32) : (s.setCrc v).hwcap = s.hwcap := rfl
@[simp] theorem State.setCrc_len (v : U32) : (s.setCrc v).len = s.len := rfl
@[simp] theorem State.setCrc_crcOut (v : U32) : (s.setCrc v).crcOut = s.crcOut := rfl
@[simp] theorem State.setCrc_straps (v : U32) : (s.setCrc v).straps = s.straps := rfl
@[simp] theorem State.setCrc_mem (v : U32) : (s.setCrc v).mem = s.mem := rfl
@[simp] theorem State.setCrc_host (v : U32) : (s.setCrc v).host = s.host := rfl
@[simp] theorem State.setCrc_mul (v : U32) : (s.setCrc v).mul = s.mul := rfl
@[simp] theorem State.setCrc_draws (v : U32) : (s.setCrc v).draws = s.draws := rfl

/-! ### `State.goto` -/

@[simp] theorem State.goto_crc (i : Instr) : (s.goto i).crc = s.crc := rfl
@[simp] theorem State.goto_x (i : Instr) : (s.goto i).x = s.x := rfl
@[simp] theorem State.goto_z (i : Instr) : (s.goto i).z = s.z := rfl
@[simp] theorem State.goto_pos (i : Instr) : (s.goto i).pos = s.pos := rfl
@[simp] theorem State.goto_rem (i : Instr) : (s.goto i).rem = s.rem := rfl
@[simp] theorem State.goto_op (i : Instr) : (s.goto i).op = i.code := rfl
@[simp] theorem State.goto_tier (i : Instr) : (s.goto i).tier = s.tier := rfl
@[simp] theorem State.goto_hwcap (i : Instr) : (s.goto i).hwcap = s.hwcap := rfl
@[simp] theorem State.goto_len (i : Instr) : (s.goto i).len = s.len := rfl
@[simp] theorem State.goto_crcOut (i : Instr) : (s.goto i).crcOut = s.crcOut := rfl
@[simp] theorem State.goto_straps (i : Instr) : (s.goto i).straps = s.straps := rfl
@[simp] theorem State.goto_mem (i : Instr) : (s.goto i).mem = s.mem := rfl
@[simp] theorem State.goto_host (i : Instr) : (s.goto i).host = s.host := rfl
@[simp] theorem State.goto_mul (i : Instr) : (s.goto i).mul = s.mul := rfl
@[simp] theorem State.goto_draws (i : Instr) : (s.goto i).draws = s.draws := rfl

/-! ### `State.setTier` -/

@[simp] theorem State.setTier_crc (v : BitVec 2) : (s.setTier v).crc = s.crc := rfl
@[simp] theorem State.setTier_x (v : BitVec 2) : (s.setTier v).x = s.x := rfl
@[simp] theorem State.setTier_z (v : BitVec 2) : (s.setTier v).z = s.z := rfl
@[simp] theorem State.setTier_pos (v : BitVec 2) : (s.setTier v).pos = s.pos := rfl
@[simp] theorem State.setTier_rem (v : BitVec 2) : (s.setTier v).rem = s.rem := rfl
@[simp] theorem State.setTier_op (v : BitVec 2) : (s.setTier v).op = s.op := rfl
@[simp] theorem State.setTier_tier (v : BitVec 2) : (s.setTier v).tier = v := rfl
@[simp] theorem State.setTier_hwcap (v : BitVec 2) : (s.setTier v).hwcap = s.hwcap := rfl
@[simp] theorem State.setTier_len (v : BitVec 2) : (s.setTier v).len = s.len := rfl
@[simp] theorem State.setTier_crcOut (v : BitVec 2) : (s.setTier v).crcOut = s.crcOut := rfl
@[simp] theorem State.setTier_straps (v : BitVec 2) : (s.setTier v).straps = s.straps := rfl
@[simp] theorem State.setTier_mem (v : BitVec 2) : (s.setTier v).mem = s.mem := rfl
@[simp] theorem State.setTier_host (v : BitVec 2) : (s.setTier v).host = s.host := rfl
@[simp] theorem State.setTier_mul (v : BitVec 2) : (s.setTier v).mul = s.mul := rfl
@[simp] theorem State.setTier_draws (v : BitVec 2) : (s.setTier v).draws = s.draws := rfl

/-! ### `State.advance` -/

@[simp] theorem State.advance_crc (n : Nat) : (s.advance n).crc = s.crc := rfl
@[simp] theorem State.advance_x (n : Nat) : (s.advance n).x = s.x := rfl
@[simp] theorem State.advance_z (n : Nat) : (s.advance n).z = s.z := rfl
@[simp] theorem State.advance_pos (n : Nat) : (s.advance n).pos = s.pos + n := rfl
@[simp] theorem State.advance_rem (n : Nat) : (s.advance n).rem = s.rem - n := rfl
@[simp] theorem State.advance_op (n : Nat) : (s.advance n).op = s.op := rfl
@[simp] theorem State.advance_tier (n : Nat) : (s.advance n).tier = s.tier := rfl
@[simp] theorem State.advance_hwcap (n : Nat) : (s.advance n).hwcap = s.hwcap := rfl
@[simp] theorem State.advance_len (n : Nat) : (s.advance n).len = s.len := rfl
@[simp] theorem State.advance_crcOut (n : Nat) : (s.advance n).crcOut = s.crcOut := rfl
@[simp] theorem State.advance_straps (n : Nat) : (s.advance n).straps = s.straps := rfl
@[simp] theorem State.advance_mem (n : Nat) : (s.advance n).mem = s.mem := rfl
@[simp] theorem State.advance_host (n : Nat) : (s.advance n).host = s.host := rfl
@[simp] theorem State.advance_mul (n : Nat) : (s.advance n).mul = s.mul := rfl
@[simp] theorem State.advance_draws (n : Nat) : (s.advance n).draws = s.draws := rfl

/-! ### `State.writeX0` -/

@[simp] theorem State.writeX0_crc (v : U128) : (s.writeX0 v).crc = s.crc := rfl
@[simp] theorem State.writeX0_x (v : U128) : (s.writeX0 v).x = { s.x with r0 := .valid v } := rfl
@[simp] theorem State.writeX0_z (v : U128) : (s.writeX0 v).z = s.z := rfl
@[simp] theorem State.writeX0_pos (v : U128) : (s.writeX0 v).pos = s.pos := rfl
@[simp] theorem State.writeX0_rem (v : U128) : (s.writeX0 v).rem = s.rem := rfl
@[simp] theorem State.writeX0_op (v : U128) : (s.writeX0 v).op = s.op := rfl
@[simp] theorem State.writeX0_tier (v : U128) : (s.writeX0 v).tier = s.tier := rfl
@[simp] theorem State.writeX0_hwcap (v : U128) : (s.writeX0 v).hwcap = s.hwcap := rfl
@[simp] theorem State.writeX0_len (v : U128) : (s.writeX0 v).len = s.len := rfl
@[simp] theorem State.writeX0_crcOut (v : U128) : (s.writeX0 v).crcOut = s.crcOut := rfl
@[simp] theorem State.writeX0_straps (v : U128) : (s.writeX0 v).straps = s.straps := rfl
@[simp] theorem State.writeX0_mem (v : U128) : (s.writeX0 v).mem = s.mem := rfl
@[simp] theorem State.writeX0_host (v : U128) : (s.writeX0 v).host = s.host := rfl
@[simp] theorem State.writeX0_mul (v : U128) : (s.writeX0 v).mul = s.mul := rfl
@[simp] theorem State.writeX0_draws (v : U128) : (s.writeX0 v).draws = s.draws := rfl

/-! ### `State.writeX` -/

@[simp] theorem State.writeX_crc (a b c d : U128) : (s.writeX a b c d).crc = s.crc := rfl
@[simp] theorem State.writeX_x (a b c d : U128) : (s.writeX a b c d).x = ⟨.valid a, .valid b, .valid c, .valid d⟩ := rfl
@[simp] theorem State.writeX_z (a b c d : U128) : (s.writeX a b c d).z = s.z := rfl
@[simp] theorem State.writeX_pos (a b c d : U128) : (s.writeX a b c d).pos = s.pos := rfl
@[simp] theorem State.writeX_rem (a b c d : U128) : (s.writeX a b c d).rem = s.rem := rfl
@[simp] theorem State.writeX_op (a b c d : U128) : (s.writeX a b c d).op = s.op := rfl
@[simp] theorem State.writeX_tier (a b c d : U128) : (s.writeX a b c d).tier = s.tier := rfl
@[simp] theorem State.writeX_hwcap (a b c d : U128) : (s.writeX a b c d).hwcap = s.hwcap := rfl
@[simp] theorem State.writeX_len (a b c d : U128) : (s.writeX a b c d).len = s.len := rfl
@[simp] theorem State.writeX_crcOut (a b c d : U128) : (s.writeX a b c d).crcOut = s.crcOut := rfl
@[simp] theorem State.writeX_straps (a b c d : U128) : (s.writeX a b c d).straps = s.straps := rfl
@[simp] theorem State.writeX_mem (a b c d : U128) : (s.writeX a b c d).mem = s.mem := rfl
@[simp] theorem State.writeX_host (a b c d : U128) : (s.writeX a b c d).host = s.host := rfl
@[simp] theorem State.writeX_mul (a b c d : U128) : (s.writeX a b c d).mul = s.mul := rfl
@[simp] theorem State.writeX_draws (a b c d : U128) : (s.writeX a b c d).draws = s.draws := rfl

/-! ### `State.writeZ0` -/

@[simp] theorem State.writeZ0_crc (v : U512) : (s.writeZ0 v).crc = s.crc := rfl
@[simp] theorem State.writeZ0_x (v : U512) : (s.writeZ0 v).x = s.x := rfl
@[simp] theorem State.writeZ0_z (v : U512) : (s.writeZ0 v).z = { s.z with r0 := .valid v } := rfl
@[simp] theorem State.writeZ0_pos (v : U512) : (s.writeZ0 v).pos = s.pos := rfl
@[simp] theorem State.writeZ0_rem (v : U512) : (s.writeZ0 v).rem = s.rem := rfl
@[simp] theorem State.writeZ0_op (v : U512) : (s.writeZ0 v).op = s.op := rfl
@[simp] theorem State.writeZ0_tier (v : U512) : (s.writeZ0 v).tier = s.tier := rfl
@[simp] theorem State.writeZ0_hwcap (v : U512) : (s.writeZ0 v).hwcap = s.hwcap := rfl
@[simp] theorem State.writeZ0_len (v : U512) : (s.writeZ0 v).len = s.len := rfl
@[simp] theorem State.writeZ0_crcOut (v : U512) : (s.writeZ0 v).crcOut = s.crcOut := rfl
@[simp] theorem State.writeZ0_straps (v : U512) : (s.writeZ0 v).straps = s.straps := rfl
@[simp] theorem State.writeZ0_mem (v : U512) : (s.writeZ0 v).mem = s.mem := rfl
@[simp] theorem State.writeZ0_host (v : U512) : (s.writeZ0 v).host = s.host := rfl
@[simp] theorem State.writeZ0_mul (v : U512) : (s.writeZ0 v).mul = s.mul := rfl
@[simp] theorem State.writeZ0_draws (v : U512) : (s.writeZ0 v).draws = s.draws := rfl

/-! ### `State.writeZ` -/

@[simp] theorem State.writeZ_crc (a b c d : U512) : (s.writeZ a b c d).crc = s.crc := rfl
@[simp] theorem State.writeZ_x (a b c d : U512) : (s.writeZ a b c d).x = s.x := rfl
@[simp] theorem State.writeZ_z (a b c d : U512) : (s.writeZ a b c d).z = ⟨.valid a, .valid b, .valid c, .valid d⟩ := rfl
@[simp] theorem State.writeZ_pos (a b c d : U512) : (s.writeZ a b c d).pos = s.pos := rfl
@[simp] theorem State.writeZ_rem (a b c d : U512) : (s.writeZ a b c d).rem = s.rem := rfl
@[simp] theorem State.writeZ_op (a b c d : U512) : (s.writeZ a b c d).op = s.op := rfl
@[simp] theorem State.writeZ_tier (a b c d : U512) : (s.writeZ a b c d).tier = s.tier := rfl
@[simp] theorem State.writeZ_hwcap (a b c d : U512) : (s.writeZ a b c d).hwcap = s.hwcap := rfl
@[simp] theorem State.writeZ_len (a b c d : U512) : (s.writeZ a b c d).len = s.len := rfl
@[simp] theorem State.writeZ_crcOut (a b c d : U512) : (s.writeZ a b c d).crcOut = s.crcOut := rfl
@[simp] theorem State.writeZ_straps (a b c d : U512) : (s.writeZ a b c d).straps = s.straps := rfl
@[simp] theorem State.writeZ_mem (a b c d : U512) : (s.writeZ a b c d).mem = s.mem := rfl
@[simp] theorem State.writeZ_host (a b c d : U512) : (s.writeZ a b c d).host = s.host := rfl
@[simp] theorem State.writeZ_mul (a b c d : U512) : (s.writeZ a b c d).mul = s.mul := rfl
@[simp] theorem State.writeZ_draws (a b c d : U512) : (s.writeZ a b c d).draws = s.draws := rfl

/-! ### `State.invalidate` -/

@[simp] theorem State.invalidate_crc : s.invalidate.crc = s.crc := rfl
@[simp] theorem State.invalidate_x : s.invalidate.x = .cleared 128 := rfl
@[simp] theorem State.invalidate_z : s.invalidate.z = .cleared 512 := rfl
@[simp] theorem State.invalidate_pos : s.invalidate.pos = s.pos := rfl
@[simp] theorem State.invalidate_rem : s.invalidate.rem = s.rem := rfl
@[simp] theorem State.invalidate_op : s.invalidate.op = s.op := rfl
@[simp] theorem State.invalidate_tier : s.invalidate.tier = s.tier := rfl
@[simp] theorem State.invalidate_hwcap : s.invalidate.hwcap = s.hwcap := rfl
@[simp] theorem State.invalidate_len : s.invalidate.len = s.len := rfl
@[simp] theorem State.invalidate_crcOut : s.invalidate.crcOut = s.crcOut := rfl
@[simp] theorem State.invalidate_straps : s.invalidate.straps = s.straps := rfl
@[simp] theorem State.invalidate_mem : s.invalidate.mem = s.mem := rfl
@[simp] theorem State.invalidate_host : s.invalidate.host = s.host := rfl
@[simp] theorem State.invalidate_mul : s.invalidate.mul = s.mul := rfl
@[simp] theorem State.invalidate_draws : s.invalidate.draws = s.draws := rfl

/-! ### `State.takeMulWord` -/

@[simp] theorem State.takeMulWord_crc : s.takeMulWord.crc = s.crc := rfl
@[simp] theorem State.takeMulWord_x : s.takeMulWord.x = s.x := rfl
@[simp] theorem State.takeMulWord_z : s.takeMulWord.z = s.z := rfl
@[simp] theorem State.takeMulWord_pos : s.takeMulWord.pos = s.pos := rfl
@[simp] theorem State.takeMulWord_rem : s.takeMulWord.rem = s.rem := rfl
@[simp] theorem State.takeMulWord_op : s.takeMulWord.op = s.op := rfl
@[simp] theorem State.takeMulWord_tier : s.takeMulWord.tier = s.tier := rfl
@[simp] theorem State.takeMulWord_hwcap : s.takeMulWord.hwcap = s.hwcap := rfl
@[simp] theorem State.takeMulWord_len : s.takeMulWord.len = s.len := rfl
@[simp] theorem State.takeMulWord_crcOut : s.takeMulWord.crcOut = s.crcOut := rfl
@[simp] theorem State.takeMulWord_straps : s.takeMulWord.straps = s.straps := rfl
@[simp] theorem State.takeMulWord_mem : s.takeMulWord.mem = s.mem := rfl
@[simp] theorem State.takeMulWord_host : s.takeMulWord.host = s.host := rfl
@[simp] theorem State.takeMulWord_mul : s.takeMulWord.mul = { s.mul with word := none } := rfl
@[simp] theorem State.takeMulWord_draws : s.takeMulWord.draws = s.draws := rfl

/-! ### `State.setDst128` -/

@[simp] theorem State.setDst128_crc (v : U128) : (s.setDst128 v).crc = s.crc := rfl
@[simp] theorem State.setDst128_x (v : U128) : (s.setDst128 v).x = s.x := rfl
@[simp] theorem State.setDst128_z (v : U128) : (s.setDst128 v).z = s.z := rfl
@[simp] theorem State.setDst128_pos (v : U128) : (s.setDst128 v).pos = s.pos := rfl
@[simp] theorem State.setDst128_rem (v : U128) : (s.setDst128 v).rem = s.rem := rfl
@[simp] theorem State.setDst128_op (v : U128) : (s.setDst128 v).op = s.op := rfl
@[simp] theorem State.setDst128_tier (v : U128) : (s.setDst128 v).tier = s.tier := rfl
@[simp] theorem State.setDst128_hwcap (v : U128) : (s.setDst128 v).hwcap = s.hwcap := rfl
@[simp] theorem State.setDst128_len (v : U128) : (s.setDst128 v).len = s.len := rfl
@[simp] theorem State.setDst128_crcOut (v : U128) : (s.setDst128 v).crcOut = s.crcOut := rfl
@[simp] theorem State.setDst128_straps (v : U128) : (s.setDst128 v).straps = s.straps := rfl
@[simp] theorem State.setDst128_mem (v : U128) : (s.setDst128 v).mem = s.mem := rfl
@[simp] theorem State.setDst128_host (v : U128) : (s.setDst128 v).host = s.host := rfl
@[simp] theorem State.setDst128_mul (v : U128) : (s.setDst128 v).mul = { s.mul with dst128 := v } := rfl
@[simp] theorem State.setDst128_draws (v : U128) : (s.setDst128 v).draws = s.draws := rfl

/-! ### `State.setDst512` -/

@[simp] theorem State.setDst512_crc (v : U512) : (s.setDst512 v).crc = s.crc := rfl
@[simp] theorem State.setDst512_x (v : U512) : (s.setDst512 v).x = s.x := rfl
@[simp] theorem State.setDst512_z (v : U512) : (s.setDst512 v).z = s.z := rfl
@[simp] theorem State.setDst512_pos (v : U512) : (s.setDst512 v).pos = s.pos := rfl
@[simp] theorem State.setDst512_rem (v : U512) : (s.setDst512 v).rem = s.rem := rfl
@[simp] theorem State.setDst512_op (v : U512) : (s.setDst512 v).op = s.op := rfl
@[simp] theorem State.setDst512_tier (v : U512) : (s.setDst512 v).tier = s.tier := rfl
@[simp] theorem State.setDst512_hwcap (v : U512) : (s.setDst512 v).hwcap = s.hwcap := rfl
@[simp] theorem State.setDst512_len (v : U512) : (s.setDst512 v).len = s.len := rfl
@[simp] theorem State.setDst512_crcOut (v : U512) : (s.setDst512 v).crcOut = s.crcOut := rfl
@[simp] theorem State.setDst512_straps (v : U512) : (s.setDst512 v).straps = s.straps := rfl
@[simp] theorem State.setDst512_mem (v : U512) : (s.setDst512 v).mem = s.mem := rfl
@[simp] theorem State.setDst512_host (v : U512) : (s.setDst512 v).host = s.host := rfl
@[simp] theorem State.setDst512_mul (v : U512) : (s.setDst512 v).mul = { s.mul with dst512 := v } := rfl
@[simp] theorem State.setDst512_draws (v : U512) : (s.setDst512 v).draws = s.draws := rfl

/-! ### `State.forgetResult` -/

@[simp] theorem State.forgetResult_crc : s.forgetResult.crc = s.crc := rfl
@[simp] theorem State.forgetResult_x : s.forgetResult.x = s.x := rfl
@[simp] theorem State.forgetResult_z : s.forgetResult.z = s.z := rfl
@[simp] theorem State.forgetResult_pos : s.forgetResult.pos = s.pos := rfl
@[simp] theorem State.forgetResult_rem : s.forgetResult.rem = s.rem := rfl
@[simp] theorem State.forgetResult_op : s.forgetResult.op = s.op := rfl
@[simp] theorem State.forgetResult_tier : s.forgetResult.tier = Config.freeTier (s.draws + 1) := rfl
@[simp] theorem State.forgetResult_hwcap : s.forgetResult.hwcap = s.hwcap := rfl
@[simp] theorem State.forgetResult_len : s.forgetResult.len = s.len := rfl
@[simp] theorem State.forgetResult_crcOut : s.forgetResult.crcOut = Config.freeU32 s.draws := rfl
@[simp] theorem State.forgetResult_straps : s.forgetResult.straps = s.straps := rfl
@[simp] theorem State.forgetResult_mem : s.forgetResult.mem = s.mem := rfl
@[simp] theorem State.forgetResult_host : s.forgetResult.host = s.host := rfl
@[simp] theorem State.forgetResult_mul : s.forgetResult.mul = s.mul := rfl
@[simp] theorem State.forgetResult_draws : s.forgetResult.draws = s.draws + 2 := rfl

/-! ### `State.forgetCommand` -/

@[simp] theorem State.forgetCommand_crc : s.forgetCommand.crc = s.crc := rfl
@[simp] theorem State.forgetCommand_x : s.forgetCommand.x = s.x := rfl
@[simp] theorem State.forgetCommand_z : s.forgetCommand.z = s.z := rfl
@[simp] theorem State.forgetCommand_pos : s.forgetCommand.pos = freeLen s.straps.lenBits s.draws := rfl
@[simp] theorem State.forgetCommand_rem : s.forgetCommand.rem = freeLen s.straps.lenBits (s.draws + 1) := rfl
@[simp] theorem State.forgetCommand_op : s.forgetCommand.op = s.op := rfl
@[simp] theorem State.forgetCommand_tier : s.forgetCommand.tier = Config.freeTier (s.draws + 4) := rfl
@[simp] theorem State.forgetCommand_hwcap : s.forgetCommand.hwcap = Config.freeU32 (s.draws + 3) := rfl
@[simp] theorem State.forgetCommand_len : s.forgetCommand.len = freeLen s.straps.lenBits (s.draws + 2) := rfl
@[simp] theorem State.forgetCommand_crcOut : s.forgetCommand.crcOut = s.crcOut := rfl
@[simp] theorem State.forgetCommand_straps : s.forgetCommand.straps = s.straps := rfl
@[simp] theorem State.forgetCommand_mem : s.forgetCommand.mem = s.mem := rfl
@[simp] theorem State.forgetCommand_host : s.forgetCommand.host = s.host := rfl
@[simp] theorem State.forgetCommand_mul : s.forgetCommand.mul = s.mul := rfl
@[simp] theorem State.forgetCommand_draws : s.forgetCommand.draws = s.draws + 5 := rfl

end Sys2Proof.Machine
end

