-- ==== Sys2Proof/Laws/Ops.lean ====
section
/-! SUPPORT. What each precondition test can do: it answers a next state exactly when its condition holds and what follows it answers that
state.  A proof about an operation cites these instead of unfolding the tests. -/

namespace Sys2Proof.Machine

variable {s t : State} {k : Result State}

@[simp] theorem needLegalTier_eq_next : needLegalTier s k = .next t ↔ s.tier ≠ 0b11#2 ∧ k = .next t := by
  unfold needLegalTier; split <;> simp_all

@[simp] theorem needVectorTier_eq_next :
    needVectorTier s k = .next t ↔ s.tier ≠ 0b11#2 ∧ s.tier ≠ 0b00#2 ∧ k = .next t := by
  unfold needVectorTier; rw [needLegalTier_eq_next]; split <;> simp_all

@[simp] theorem needFeature_eq_next {f : Feature} :
    needFeature s f k = .next t ↔ hasFeature s.straps.platform f = true ∧ k = .next t := by
  unfold needFeature; split <;> simp_all

@[simp] theorem needBytes_eq_next {need n : Nat} :
    needBytes s need n k = .next t ↔ need ≤ s.rem ∧ s.pos + n ≤ s.len ∧ k = .next t := by
  unfold needBytes
  split
  · exact iff_of_false (by simp) (by omega)
  · split
    · exact iff_of_false (by simp) (by omega)
    · constructor
      · exact fun h => ⟨by omega, by omega, h⟩
      · exact fun h => h.2.2

@[simp] theorem needAcc_eq_next {w : Nat} {r : AccName} {a : Acc w} {f : BitVec w → Result State} :
    needAcc r a f = .next t ↔ ∃ v, a = .valid v ∧ f v = .next t := by
  cases a <;> simp [needAcc]

@[simp] theorem needX0_eq_next {f : U128 → Result State} :
    needX0 s f = .next t ↔ ∃ v, s.x.r0 = .valid v ∧ f v = .next t := needAcc_eq_next

@[simp] theorem needZ0_eq_next {f : U512 → Result State} :
    needZ0 s f = .next t ↔ ∃ v, s.z.r0 = .valid v ∧ f v = .next t := needAcc_eq_next

@[simp] theorem needX_eq_next {f : U128 → U128 → U128 → U128 → Result State} :
    needX s f = .next t ↔ ∃ a b c d, s.x = ⟨.valid a, .valid b, .valid c, .valid d⟩ ∧ f a b c d = .next t := by
  rcases s with ⟨_, ⟨r0, r1, r2, r3⟩⟩
  cases r0 <;> cases r1 <;> cases r2 <;> cases r3 <;> simp [needX, needAcc]

@[simp] theorem needZ_eq_next {f : U512 → U512 → U512 → U512 → Result State} :
    needZ s f = .next t ↔ ∃ a b c d, s.z = ⟨.valid a, .valid b, .valid c, .valid d⟩ ∧ f a b c d = .next t := by
  rcases s with ⟨_, _, ⟨r0, r1, r2, r3⟩⟩
  cases r0 <;> cases r1 <;> cases r2 <;> cases r3 <;> simp [needZ, needAcc]

/-! ### Continuations: a test whose condition holds is what follows it -/

theorem needLegalTier_of (h : s.tier ≠ 0b11#2) : needLegalTier s k = k := by simp [needLegalTier, h]

theorem needVectorTier_of (h : s.tier ≠ 0b11#2) (h0 : s.tier ≠ 0b00#2) : needVectorTier s k = k := by
  simp [needVectorTier, needLegalTier, h, h0]

theorem needFeature_of {f : Feature} (h : hasFeature s.straps.platform f = true) : needFeature s f k = k := by
  simp [needFeature, h]

theorem needBytes_of {need n : Nat} (h : need ≤ s.rem) (h' : s.pos + n ≤ s.len) : needBytes s need n k = k := by
  have h1 : ¬ s.rem < need := by omega
  have h2 : ¬ s.len < s.pos + n := by omega
  simp [needBytes, h1, h2]

theorem needX_of {a b c d : U128} (f : U128 → U128 → U128 → U128 → Result State)
    (h : s.x = ⟨.valid a, .valid b, .valid c, .valid d⟩) : needX s f = f a b c d := by
  simp [needX, needAcc, h]

theorem needZ_of {a b c d : U512} (f : U512 → U512 → U512 → U512 → Result State)
    (h : s.z = ⟨.valid a, .valid b, .valid c, .valid d⟩) : needZ s f = f a b c d := by
  simp [needZ, needAcc, h]

/-! ### Codes -/

/-- Every sequencer operation is read back from the code that names it. -/
theorem decodeS_code {i : Instr} (h : i.format = .s) : decodeS i.code = .ok i := by
  cases i <;> first | rfl | (exact absurd h (by decide))

/-- Two sequencer operations with one code are one operation. -/
theorem code_injective {i j : Instr} (hi : i.format = .s) (hj : j.format = .s) (h : i.code = j.code) : i = j := by
  have := decodeS_code hi
  rw [h, decodeS_code hj] at this
  exact (Except.ok.inj this).symm

end Sys2Proof.Machine
end

