-- ==== Sys2Proof/Laws/Exec.lean ====
section
/-! SUPPORT. What the operations shared by several meanings, the fetch and the step can do, said once, and that every choice of a next operation is a
sequencer operation. -/

namespace Sys2Proof.Machine

variable {s t : State}

/-- A 128-bit multiplier command answers exactly this, where the platform has the narrow multiply. -/
@[simp] theorem clmulCommand_eq_next {ha hb : Half} :
    clmulCommand ha hb s = .next t ↔
      s.straps.platform.nclmul = true ∧ s.takeMulWord.setDst128 (clmul ha hb s.mul.a128 s.mul.b128) = t := by
  simp [clmulCommand, hasFeature]

/-- A 512-bit multiplier command answers exactly this, where the platform has the wide multiply. -/
@[simp] theorem vclmulCommand_eq_next {ha hb : Half} :
    vclmulCommand ha hb s = .next t ↔
      (s.straps.platform.wclmul = true ∧ s.straps.platform.v512 = true) ∧
        s.takeMulWord.setDst512 (vclmul ha hb s.mul.a512 s.mul.b512) = t := by
  simp [vclmulCommand, hasFeature]

/-- Decoding a class-0 word is decoding its code. -/
theorem decodeWord_formatS : ∀ op : BitVec 5, decodeWord (formatS op) = decodeS op := by decide

/-- What is fetched is what the code in `OP` decodes to. -/
theorem fetchInstr_eq_ok {i : Instr} : fetchInstr s = .ok i ↔ decodeS s.op = .ok i := by
  rw [← decodeWord_formatS]; unfold fetchInstr fetchWord; split <;> simp_all

/-- Only a format-M word is a command on the multiplier's port. -/
theorem portInstr_eq_ok {w : U8} {i : Instr} : portInstr w = .ok i ↔ decodeWord w = .ok i ∧ i.format = .m := by
  unfold portInstr
  split
  · split <;> simp_all <;> rintro rfl <;> assumption
  · simp_all

theorem followedBy_eq_next {r : Result State} {k : State → Result State} :
    followedBy r k = .next t ↔ ∃ m, r = .next m ∧ k m = .next t := by
  cases r <;> simp [followedBy]

/-- The operation `OP` names, where it goes on. -/
theorem runOperation_eq_next : runOperation s = .next t ↔ ∃ i, decodeS s.op = .ok i ∧ exec i s = .next t := by
  simp only [← fetchInstr_eq_ok]; unfold runOperation; split <;> simp_all

/-- With an empty port a step is the operation `OP` names. -/
theorem step_of_none (h : s.mul.word = none) : step s = runOperation s := by simp [step, sequencerStep, runPort, followedBy, h]

/-- With a command on the port a step is that command and then the operation `OP` names. -/
theorem step_of_some {w : U8} {m : Instr} (h : s.mul.word = some w) (hm : portInstr w = .ok m) :
    step s = followedBy (exec m s) runOperation := by
  simp [step, sequencerStep, runPort, h, hm]

/-- A step that goes on: the port's part, then the operation `OP` names. -/
theorem step_eq_next : step s = .next t ↔ ∃ m, runPort s = .next m ∧ ∃ i, decodeS m.op = .ok i ∧ exec i m = .next t := by
  simp only [step, sequencerStep, followedBy_eq_next, runOperation_eq_next]

/-- After `OP <- i` the operation fetched is `i`. -/
theorem fetchInstr_goto {i : Instr} (hi : i.format = .s) : fetchInstr (s.goto i) = .ok i :=
  fetchInstr_eq_ok.2 (decodeS_code hi)

/-! ### Every choice of a next operation is a sequencer operation -/

@[simp] theorem afterScalar_format (r : Nat) : (afterScalar r).format = .s := by unfold afterScalar; split <;> rfl
@[simp] theorem afterWideBlock_format (r : Nat) : (afterWideBlock r).format = .s := by unfold afterWideBlock; split <;> rfl
@[simp] theorem afterWideLane_format (r : Nat) : (afterWideLane r).format = .s := by unfold afterWideLane; split <;> rfl
@[simp] theorem afterNarrowBlock_format (r : Nat) : (afterNarrowBlock r).format = .s := by unfold afterNarrowBlock; split <;> rfl
@[simp] theorem afterNarrowLane_format (r : Nat) : (afterNarrowLane r).format = .s := by unfold afterNarrowLane; split <;> rfl

@[simp] theorem afterProbe_format (tier : BitVec 2) (r : Nat) : (afterProbe tier r).format = .s := by
  unfold afterProbe; split_ifs <;> rfl

end Sys2Proof.Machine
end

