-- ==== Sys2Proof/Laws/Memory.lean ====
section
/-! SUPPORT. The input buffer: its canonical form is kept by every operation that makes a buffer, a read finds what was written, and two
buffers in canonical form that read alike are equal. -/

namespace Sys2Proof.Machine

theorem Memory.wf_nil : Memory.wf ([] : Memory) := by simp [Memory.wf]

theorem Memory.wf_cons {c : Host.Cell} {m : Memory} :
    Memory.wf (c :: m) ↔ (∀ d ∈ m, c.1 < d.1) ∧ c.2 ≠ 0 ∧ Memory.wf m := by
  simp only [Memory.wf, List.pairwise_cons, List.mem_cons, forall_eq_or_imp]
  tauto

/-- An offset below every listed one reads zero. -/
theorem Memory.read_below {m : Memory} {a : Nat} (h : ∀ d ∈ m, a < d.1) : m.read a = 0 := by
  induction m with
  | nil => rfl
  | cons c m ih =>
    have hc := h c (by simp)
    simp only [Memory.read, Nat.ne_of_gt hc, if_false]
    exact ih fun d hd => h d (by simp [hd])

/-- Every cell of a written buffer is the written one or an old one. -/
theorem Memory.mem_write {m : Memory} {a : Nat} {b : U8} {d : Host.Cell} (h : d ∈ m.write a b) :
    d = (a, b) ∧ b ≠ 0 ∨ d ∈ m := by
  induction m with
  | nil =>
    simp only [Memory.write] at h
    split at h <;> simp_all
  | cons c m ih =>
    simp only [Memory.write] at h
    split at h
    · split at h <;> simp_all
    · split at h
      · split at h <;> simp_all
        rcases h with h | h <;> simp [h]
      · rcases List.mem_cons.mp h with h | h
        · simp [h]
        · rcases ih h with h | h
          · exact .inl h
          · exact .inr (List.mem_cons_of_mem _ h)

/-- A write keeps the canonical form. -/
theorem Memory.write_wf {m : Memory} (h : m.wf) (a : Nat) (b : U8) : (m.write a b).wf := by
  induction m with
  | nil =>
    simp only [Memory.write]
    split
    · exact Memory.wf_nil
    · simp_all [Memory.wf]
  | cons c m ih =>
    obtain ⟨hlt, hne, hm⟩ := Memory.wf_cons.mp h
    simp only [Memory.write]
    split
    · rename_i hac
      split
      · exact h
      · refine Memory.wf_cons.mpr ⟨fun d hd => ?_, by assumption, h⟩
        rcases List.mem_cons.mp hd with rfl | hd
        · exact hac
        · exact Nat.lt_trans hac (hlt d hd)
    · split
      · rename_i hac
        split
        · exact hm
        · exact Memory.wf_cons.mpr ⟨fun d hd => hac ▸ hlt d hd, by assumption, hm⟩
      · rename_i h1 h2
        refine Memory.wf_cons.mpr ⟨fun d hd => ?_, hne, ih hm⟩
        rcases Memory.mem_write hd with ⟨rfl, -⟩ | hd
        · show c.1 < a
          omega
        · exact hlt d hd

/-- A read at the written offset finds the written byte. -/
theorem Memory.read_write_same {m : Memory} (h : m.wf) (a : Nat) (b : U8) : (m.write a b).read a = b := by
  induction m with
  | nil =>
    simp only [Memory.write]
    split <;> simp_all [Memory.read]
  | cons c m ih =>
    obtain ⟨hlt, hne, hm⟩ := Memory.wf_cons.mp h
    simp only [Memory.write]
    split
    · rename_i hac
      split
      · subst_vars
        refine Memory.read_below fun d hd => ?_
        rcases List.mem_cons.mp hd with rfl | hd
        · exact hac
        · exact Nat.lt_trans hac (hlt d hd)
      · simp [Memory.read]
    · split
      · rename_i hac
        split
        · subst_vars
          exact Memory.read_below fun d hd => hlt d hd
        · simp [Memory.read]
      · rename_i h1 h2
        have : ¬ c.1 = a := fun e => h2 e.symm
        simp [Memory.read, this, ih hm]

/-- A write leaves every other offset alone. -/
theorem Memory.read_write_other (m : Memory) {a a' : Nat} (b : U8) (hne : a' ≠ a) :
    (m.write a b).read a' = m.read a' := by
  induction m with
  | nil =>
    simp only [Memory.write]
    split <;> simp [Memory.read, hne.symm]
  | cons c m ih =>
    simp only [Memory.write]
    split
    · split <;> simp [Memory.read, hne.symm]
    · split
      · rename_i hac
        have : ¬ c.1 = a' := fun e => hne (e ▸ hac.symm)
        split <;> simp [Memory.read, hne.symm, this]
      · simp [Memory.read, ih]

/-- Every offset listed in the buffer of a byte string is at or after its start. -/
theorem Memory.ofBytes_le {a : Nat} {bs : List U8} {d : Host.Cell} (h : d ∈ Memory.ofBytes a bs) : a ≤ d.1 := by
  induction bs generalizing a with
  | nil => simp [Memory.ofBytes] at h
  | cons b bs ih =>
    simp only [Memory.ofBytes] at h
    split at h
    · exact Nat.le_of_succ_le (ih h)
    · rcases List.mem_cons.mp h with rfl | h
      · exact Nat.le_refl _
      · exact Nat.le_of_succ_le (ih h)

/-- The buffer of a byte string is in canonical form. -/
theorem Memory.ofBytes_wf (a : Nat) (bs : List U8) : (Memory.ofBytes a bs).wf := by
  induction bs generalizing a with
  | nil => exact Memory.wf_nil
  | cons b bs ih =>
    simp only [Memory.ofBytes]
    split
    · exact ih _
    · exact Memory.wf_cons.mpr ⟨fun d hd => Memory.ofBytes_le hd, by assumption, ih _⟩

/-- The buffer of a byte string reads as the string. -/
theorem Memory.read_ofBytes (a : Nat) (bs : List U8) (i : Nat) : (Memory.ofBytes a bs).read (a + i) = bs.getD i 0 := by
  induction bs generalizing a i with
  | nil => simp [Memory.ofBytes, Memory.read]
  | cons b bs ih =>
    have hlow : (Memory.ofBytes (a + 1) bs).read a = 0 :=
      Memory.read_below fun d hd => Memory.ofBytes_le hd
    simp only [Memory.ofBytes]
    cases i with
    | zero =>
      split
      · rename_i hb
        simp [hlow, hb]
      · simp [Memory.read]
    | succ i =>
      have e : a + (i + 1) = a + 1 + i := by omega
      split
      · rw [e, ih]; rfl
      · have : ¬ a = a + (i + 1) := by omega
        simp only [Memory.read, this, if_false]
        rw [e, ih]; rfl

/-- A buffer that reads zero everywhere and is in canonical form lists nothing; more generally the form is unique. -/
theorem Memory.ext_read {m m' : Memory} (h : m.wf) (h' : m'.wf) (e : ∀ a, m.read a = m'.read a) : m = m' := by
  induction m generalizing m' with
  | nil =>
    cases m' with
    | nil => rfl
    | cons c m' =>
      have := e c.1
      simp [Memory.read] at this
      exact absurd this.symm (Memory.wf_cons.mp h').2.1
  | cons c m ih =>
    obtain ⟨hlt, hne, hm⟩ := Memory.wf_cons.mp h
    cases m' with
    | nil =>
      have := e c.1
      simp [Memory.read] at this
      exact absurd this hne
    | cons c' m' =>
      obtain ⟨hlt', hne', hm'⟩ := Memory.wf_cons.mp h'
      have hcc : c.1 = c'.1 := by
        rcases Nat.lt_trichotomy c.1 c'.1 with hl | hl | hl
        · have h0 : Memory.read (c' :: m') c.1 = 0 := Memory.read_below fun d hd => by
            rcases List.mem_cons.mp hd with rfl | hd
            · exact hl
            · exact Nat.lt_trans hl (hlt' d hd)
          have := e c.1
          rw [h0] at this
          simp [Memory.read] at this
          exact absurd this hne
        · exact hl
        · have h0 : Memory.read (c :: m) c'.1 = 0 := Memory.read_below fun d hd => by
            rcases List.mem_cons.mp hd with rfl | hd
            · exact hl
            · exact Nat.lt_trans hl (hlt d hd)
          have := e c'.1
          rw [h0] at this
          simp [Memory.read] at this
          exact absurd this.symm hne'
      have hc2 : c.2 = c'.2 := by
        have := e c.1
        simpa [Memory.read, hcc] using this
      have hrest : m = m' := by
        refine ih hm hm' fun a => ?_
        by_cases ha : c.1 = a
        · subst ha
          rw [Memory.read_below hlt, Memory.read_below (by intro d hd; rw [hcc]; exact hlt' d hd)]
        · have := e a
          simpa [Memory.read, ha, show ¬ c'.1 = a from hcc ▸ ha] using this
      rw [hrest, show c = c' from Prod.ext hcc hc2]

@[simp] theorem Memory.bytes_length (m : Memory) (a n : Nat) : (m.bytes a n).length = n := by
  induction n generalizing a with
  | zero => rfl
  | succ n ih => simp [Memory.bytes, ih]

/-- Consecutive stretches of a buffer, one after the other. -/
theorem Memory.bytes_add (m : Memory) (a n k : Nat) : m.bytes a (n + k) = m.bytes a n ++ m.bytes (a + n) k := by
  induction n generalizing a with
  | zero => simp [Memory.bytes]
  | succ n ih =>
    rw [Nat.succ_add]
    simp only [Memory.bytes, List.cons_append, ih]
    rw [show a + 1 + n = a + (n + 1) by omega]

/-- Reading back the bytes of the buffer made from a string gives the string. -/
theorem Memory.bytes_ofBytes (a : Nat) (bs : List U8) : (Memory.ofBytes a bs).bytes a bs.length = bs := by
  suffices h : ∀ (m : Memory) (a n : Nat), m.bytes a n = (List.range n).map fun i => m.read (a + i) by
    rw [h]
    refine List.ext_getElem (by simp) fun i h1 h2 => ?_
    simp only [List.getElem_map, List.getElem_range, Memory.read_ofBytes]
    simp [List.getD_eq_getElem?_getD, h2]
  intro m a n
  induction n generalizing a with
  | zero => rfl
  | succ n ih =>
    rw [List.range_succ_eq_map]
    simp only [Memory.bytes, ih, List.map_cons, List.map_map, Nat.add_zero]
    congr 1
    refine List.map_congr_left fun i _ => ?_
    simp only [Function.comp]
    rw [show a + 1 + i = a + Nat.succ i by omega]

/-- The host's act of presenting a command keeps the canonical form. -/
theorem State.present_wf {s : State} (h : s.mem.wf) (c : U32) (data : List U8) (hw : U32) :
    (s.present c data hw).mem.wf := by
  unfold State.present
  split
  · exact Memory.ofBytes_wf 0 data
  · exact h

/-- The buffer at reset is in canonical form. -/
theorem State.reset_mem_wf : State.reset.mem.wf := Memory.wf_nil

end Sys2Proof.Machine
end

