-- ==== Sys2Proof/Laws/PerInstr.lean ====
section
/-! SUPPORT. Facts about every operation as syntax, one lemma per constructor. -/

namespace Sys2Proof.Laws.Encoding

/-- 30_encoding.md rules R70 to R72, R74: the operation is well formed, its encoding is one byte, and the class of that byte is the class of its
format. -/
def Statement (i : Instr) : Prop :=
  i.wf = true ∧ (encode i).length = 1 ∧
    fieldClass (encodeWord i) = (match i.format with
      | .s => 0b000#3
      | .m => 0b001#3)

theorem update : Statement .update := ⟨rfl, rfl, by decide⟩
theorem probe : Statement .probe := ⟨rfl, rfl, by decide⟩
theorem sbyte : Statement .sbyte := ⟨rfl, rfl, by decide⟩
theorem done : Statement .done := ⟨rfl, rfl, by decide⟩
theorem wInit : Statement .wInit := ⟨rfl, rfl, by decide⟩
theorem wFold4 : Statement .wFold4 := ⟨rfl, rfl, by decide⟩
theorem wCollapse : Statement .wCollapse := ⟨rfl, rfl, by decide⟩
theorem wFold1 : Statement .wFold1 := ⟨rfl, rfl, by decide⟩
theorem wHred : Statement .wHred := ⟨rfl, rfl, by decide⟩
theorem nInit4 : Statement .nInit4 := ⟨rfl, rfl, by decide⟩
theorem nFold4 : Statement .nFold4 := ⟨rfl, rfl, by decide⟩
theorem nCollapse : Statement .nCollapse := ⟨rfl, rfl, by decide⟩
theorem nInit1 : Statement .nInit1 := ⟨rfl, rfl, by decide⟩
theorem nFold1 : Statement .nFold1 := ⟨rfl, rfl, by decide⟩
theorem rFold64 : Statement .rFold64 := ⟨rfl, rfl, by decide⟩
theorem rBarrett : Statement .rBarrett := ⟨rfl, rfl, by decide⟩
theorem clmulLL : Statement .clmulLL := ⟨rfl, rfl, by decide⟩
theorem clmulHL : Statement .clmulHL := ⟨rfl, rfl, by decide⟩
theorem clmulLH : Statement .clmulLH := ⟨rfl, rfl, by decide⟩
theorem clmulHH : Statement .clmulHH := ⟨rfl, rfl, by decide⟩
theorem vclmulLL : Statement .vclmulLL := ⟨rfl, rfl, by decide⟩
theorem vclmulHL : Statement .vclmulHL := ⟨rfl, rfl, by decide⟩
theorem vclmulLH : Statement .vclmulLH := ⟨rfl, rfl, by decide⟩
theorem vclmulHH : Statement .vclmulHH := ⟨rfl, rfl, by decide⟩

end Sys2Proof.Laws.Encoding
end

