-- ==== Sys2Proof/Tests/Slice0.lean ====
section
/-! SUPPORT. Small tests of single operations, and witnesses that the hypotheses of each statement can be met. Every expected value is the
spec's: 95_test_vectors.md (tables V1, V4 to V7, V9, V10; programs P1 to P4) or the encoding tables of 30_encoding.md. -/

namespace Sys2Proof.Tests

-- One theorem at a time: each kernel evaluation takes a large stack of its own.
set_option Elab.async false

open Sys2Proof.Machine

/-! ### Small states -/

/-- `n` data bytes, the first one `a`, each one more than the last (the data of P2 to P4). -/
def ramp (a n : Nat) : List U8 := (List.range n).map fun i => BitVec.ofNat 8 (a + i)

/-- About to run `i`: `TIER`, `CRC`, `POS`, `REM`, and the given bytes from `POS` on. -/
def about (i : Instr) (tier : BitVec 2) (crc : U32) (pos rem : Nat) (data : List U8) : State :=
  { State.reset with op := i.code, tier := tier, crc := crc, pos := pos, rem := rem, len := pos + rem, mem := Memory.ofBytes pos data }

/-- The same with the narrow accumulators valid. -/
def aboutX (i : Instr) (tier : BitVec 2) (crc : U32) (pos rem : Nat) (data : List U8) (x0 x1 x2 x3 : U128) : State :=
  { about i tier crc pos rem data with x := ⟨.valid x0, .valid x1, .valid x2, .valid x3⟩ }

/-- The same with the wide accumulators valid. -/
def aboutZ (i : Instr) (tier : BitVec 2) (crc : U32) (pos rem : Nat) (data : List U8) (z0 z1 z2 z3 : U512) : State :=
  { about i tier crc pos rem data with z := ⟨.valid z0, .valid z1, .valid z2, .valid z3⟩ }

/-- Idle after reset, with a command presented. -/
def presented (crcIn : U32) (data : List U8) (hwcap : U32) : State := State.reset.present crcIn data hwcap

/-- A command on the multiplier's port. -/
def multiply (w : U8) (a b : U128) (a' b' : U512) : State := { State.reset with mul := ⟨some w, a, b, 0, a', b', 0⟩ }

/-- The operation completes, in a state with the given property. -/
def ran (i : Instr) (s : State) (p : State → Bool) : Bool :=
  match exec i s with
  | .next t => p t
  | .fault _ => false
  | .refused _ => false

/-- The refusal an outcome is, if it is one. -/
def refusal : Host.Outcome State Fault Refusal → Option Refusal
  | .next _ => none
  | .fault _ => none
  | .refused r => some r

/-- The fault an outcome is, if it is one. -/
def fault : Host.Outcome State Fault Refusal → Option Fault
  | .next _ => none
  | .fault r => some r
  | .refused _ => none

/-- One step goes on, to a state with the given property. -/
def stepped (s : State) (p : State → Bool) : Bool :=
  match step s with
  | .next t => p t
  | .fault _ => false
  | .refused _ => false

/-- The state `n` steps on, if the machine goes on that long; else the state itself. -/
def after (n : Nat) (s : State) : State :=
  match Sys2Proof.core.run n s with
  | .next t => t
  | .fault _ => s
  | .refused _ => s

/-- The machine goes on for `n` steps. -/
def goesOn (n : Nat) (s : State) : Bool :=
  match Sys2Proof.core.run n s with
  | .next _ => true
  | .fault _ => false
  | .refused _ => false

theorem next_of_ran {i : Instr} {s : State} {p : State → Bool} (h : ran i s p = true) : ∃ t, exec i s = .next t ∧ p t = true := by
  unfold ran at h
  split at h
  · exact ⟨_, ‹_›, h⟩
  · cases h
  · cases h

theorem next_of_stepped {s : State} {p : State → Bool} (h : stepped s p = true) : ∃ t, step s = .next t ∧ p t = true := by
  unfold stepped at h
  split at h
  · exact ⟨_, ‹_›, h⟩
  · cases h
  · cases h

theorem run_of_goesOn {n : Nat} {s : State} (h : goesOn n s = true) : Sys2Proof.core.run n s = .next (after n s) := by
  unfold goesOn at h
  unfold after
  split at h
  · simp_all
  · cases h
  · cases h

/-! ### Well-formedness: the one check that can fail is a command's length -/

theorem test_wf_refuses_long_command : Command.wf (some 8) ⟨0, 256, 0⟩ = false ∧ Command.wf (some 8) ⟨0, 255, 0⟩ = true := by decide

theorem test_wf_unbounded_by_default : Command.wf none ⟨0xFFFFFFFF, 4097, 0xFFFFFFFF⟩ = true := by decide

theorem test_update_refuses_long_command :
    refusal (exec .update { presented 0 (ramp 0 4) 7 with straps := { State.reset.straps with lenBits := some 2 } }) = some .lengthTooWide := by
  decide +kernel

/-! ### Decoding: every word written out from 30_encoding.md rules R71 to R73 -/

theorem test_decode_orchestration :
    decodeWord 0b00000000 = .ok .update ∧ decodeWord 0b00000001 = .ok .probe ∧ decodeWord 0b00000010 = .ok .sbyte ∧
    decodeWord 0b00000011 = .ok .done := by decide

theorem test_decode_wide :
    decodeWord 0b00001000 = .ok .wInit ∧ decodeWord 0b00001001 = .ok .wFold4 ∧ decodeWord 0b00001010 = .ok .wCollapse ∧
    decodeWord 0b00001011 = .ok .wFold1 ∧ decodeWord 0b00001100 = .ok .wHred := by decide

theorem test_decode_narrow :
    decodeWord 0b00010000 = .ok .nInit4 ∧ decodeWord 0b00010001 = .ok .nFold4 ∧ decodeWord 0b00010010 = .ok .nCollapse ∧
    decodeWord 0b00010011 = .ok .nInit1 ∧ decodeWord 0b00010100 = .ok .nFold1 := by decide

theorem test_decode_reduction : decodeWord 0b00011000 = .ok .rFold64 ∧ decodeWord 0b00011001 = .ok .rBarrett := by decide

theorem test_decode_narrow_multiply :
    decodeWord 0b00100000 = .ok .clmulLL ∧ decodeWord 0b00100001 = .ok .clmulHL ∧ decodeWord 0b00100010 = .ok .clmulLH ∧
    decodeWord 0b00100011 = .ok .clmulHH := by decide

theorem test_decode_wide_multiply :
    decodeWord 0b00100100 = .ok .vclmulLL ∧ decodeWord 0b00100101 = .ok .vclmulHL ∧ decodeWord 0b00100110 = .ok .vclmulLH ∧
    decodeWord 0b00100111 = .ok .vclmulHH := by decide

theorem test_decode_reserved :
    decodeWord 0x04 = .error .reservedCode ∧ decodeWord 0x1F = .error .reservedCode ∧ decodeWord 0x28 = .error .reservedZero ∧
    decodeWord 0x3F = .error .reservedZero ∧ decodeWord 0x40 = .error .reservedClass ∧ decodeWord 0xFF = .error .reservedClass ∧
    decode [] = .error .noByte := by decide

theorem test_decode_keeps_the_rest : decode [0x13, 0x18] = .ok (.nInit1, [0x18]) := by decide

/-- The words of program P4. -/
theorem test_encode_program_words :
    [Instr.update, .probe, .wInit, .wFold4, .wCollapse, .wFold1, .wHred, .rFold64, .rBarrett, .sbyte, .done].map encodeWord =
      [0x00, 0x01, 0x08, 0x09, 0x0A, 0x0B, 0x0C, 0x18, 0x19, 0x02, 0x03] := by decide

theorem test_table_word : decodeTableWord 8 0x23 = some .clmulHH ∧ decodeTableWord 8 0x05 = none := by decide

theorem test_placed_word_runs : ∀ i ∈ [Instr.update, .probe, .sbyte, .done, .wHred, .nFold4, .rBarrett, .clmulHL, .vclmulLH],
    stepped (State.reset.withFetchWord 8 (encodeWord i).toNat) (fun _ => true) = true := by decide +kernel

theorem test_reserved_word_refused : refusal (step (State.reset.withFetchWord 8 0x1A)) = some (.reservedWord 0x1A .reservedCode) := by
  decide +kernel

/-- A multiplier command and the sequencer's operation in one step: the product appears and `SBYTE` has consumed its byte (P1, first byte). -/
theorem test_port_command_is_no_step :
    stepped { about .sbyte 0 0xFFFFFFFF 0 9 [0x31] with mul := ⟨some 0x20, 3, 3, 0, 0, 0, 0⟩ } (fun t =>
      t.mul.dst128 == 5 && t.mul.word == none && t.crc == 0x7C231048 && t.rem == 8 && t.op == 0x02) = true := by decide +kernel

theorem test_port_takes_no_sequencer_word : refusal (step (multiply 0x02 0 0 0 0)) = some (.notMultiplierCommand 0x02) := by decide +kernel

/-! ### The tables and constants -/

/-- Table V1. -/
theorem test_table_entries : ∀ e ∈ [(0, 0x00000000), (4, 0x076DC419), (8, 0x0EDB8832), (12, 0x09B64C2B), (1, 0x77073096), (5, 0x706AF48F), 
    (9, 0x79DCB8A4), (13, 0x7EB17CBD), (2, 0xEE0E612C), (6, 0xE963A535), (10, 0xE0D5E91E), (14, 0xE7B82D07), 
    (3, 0x990951BA), (7, 0x9E6495A3), (11, 0x97D2D988), (15, 0x90BF1D91), (16, 0x1DB71064), (32, 0x3B6E20C8), 
    (64, 0x76DC4190), (128, 0xEDB88320), (0x58, 0x65B0D9C6), (0x69, 0x346ED9FC), (0x7A, 0xB0D09822), 
    (0xA9, 0xAF0A1B4C), (0xCE, 0x7CDCEFB7), (0xD5, 0xF6B9265B), (0xFF, 0x2D02EF8D)],
    table (BitVec.ofNat 8 e.1) = BitVec.ofNat 32 e.2 := by decide +kernel

/-- Table V4: length, `hwcap`, strap, `TIER`, next operation. -/
theorem test_tier_selection : ∀ r ∈ [
    (0, 0x7, .oneLane, 0b00, .done),
    (15, 0x7, .oneLane, 0b00, .sbyte),
    (16, 0x7, .oneLane, 0b01, .nInit1),
    (16, 0x7, .eightLanes, 0b00, .sbyte),
    (20, 0x1, .oneLane, 0b01, .nInit1),
    (127, 0x1, .eightLanes, 0b00, .sbyte),
    (128, 0x1, .eightLanes, 0b01, .nInit4),
    (127, 0x1, .oneLane, 0b01, .nInit1),
    (128, 0x1, .oneLane, 0b01, .nInit4),
    (511, 0x7, .oneLane, 0b01, .nInit4),
    (512, 0x7, .oneLane, 0b10, .wInit),
    (512, 0x6, .oneLane, 0b00, .sbyte),
    (512, 0x3, .oneLane, 0b01, .nInit4),
    (512, 0x5, .oneLane, 0b01, .nInit4),
    (512, 0x1, .oneLane, 0b01, .nInit4),
    (512, 0x0, .oneLane, 0b00, .sbyte),
    (512, 0xF, .oneLane, 0b00, .sbyte),
    (4096, 0xFFFFFFF7, .oneLane, 0b10, .wInit),
    (16, 0x10, .oneLane, 0b00, .sbyte)],
    (fun (r : Nat × U32 × Config.MinVec × BitVec 2 × Instr) =>
      ran .probe { State.reset with rem := r.1, hwcap := r.2.1, straps := { State.reset.straps with minVec := r.2.2.1 } } fun t =>
        t.tier == r.2.2.2.1 && t.op == r.2.2.2.2.code) r = true := by decide +kernel

/-- Table V5, the constants with the smaller exponents. -/
theorem test_fold_constants :
    [foldConst 160, foldConst 96, foldConst 64, foldConst 32] =
      [0x01751997D0, 0x00CCAA009E, 0x0163CD6124, 0x01DB710640] := by
  decide +kernel

/-- Table V5: the ROM as u128 literals. -/
theorem test_rom :
    [rom 0, rom 1, rom 2, rom 3, rom 4, rom 5] =
      [0x00000001322D1430000000011542778A, 0x00000001C6E415960000000154442BD4, 0x00000000CCAA009E00000001751997D0,
        0x00000000000000000000000163CD6124, 0x00000001F701164100000001DB710641, 0x00000000FFFFFFFF00000000FFFFFFFF] := by
  decide +kernel

/-- Table V6. -/
theorem test_products :
    clmul64 3 3 = 5 ∧ clmul64 0x8000000000000001 3 = 0x00000000000000018000000000000003 ∧
    clmul64 0xFFFFFFFFFFFFFFFF 0xFFFFFFFFFFFFFFFF = 0x55555555555555555555555555555555 ∧
    clmul64 0x8000000000000000 0x8000000000000000 = 0x40000000000000000000000000000000 := by decide +kernel

/-- Table V6, the folds by each distance. -/
theorem test_folds :
    fold128 0xFEDCBA98765432100123456789ABCDEF 0x1F1E1D1C1B1A19181716151413121110 (rom 2) = 0x1F1E1D1C5EF03F32C82676917637AB40 ∧
    fold128 0xFEDCBA98765432100123456789ABCDEF 0x1F1E1D1C1B1A19181716151413121110 (rom 1) = 0x1F1E1D1CA6388FF6BCA6CFC350D5087C ∧
    fold128 0xFEDCBA98765432100123456789ABCDEF 0x1F1E1D1C1B1A19181716151413121110 (rom 0) = 0x1F1E1D1CF522F75AA41EC2340A666C36 := by decide +kernel

/-- Vector V7: the crossed halves give another value. -/
theorem test_crossed_halves :
    0x1F1E1D1C1B1A19181716151413121110 ^^^ clmul .lo .hi 0xFEDCBA98765432100123456789ABCDEF (rom 2) ^^^ clmul .hi .lo 0xFEDCBA98765432100123456789ABCDEF (rom 2) =
      0x1F1E1D1CC99EB208C8267691E159267A := by decide +kernel

/-- Table V6, the fold law's instances. -/
theorem test_fold_law :
    laneCrc (fold128 0xFEDCBA98765432100123456789ABCDEF 0x1F1E1D1C1B1A19181716151413121110 (rom 2)) = 0x1E79542E ∧
    laneCrc (fold128 0xFEDCBA98765432100123456789ABCDEF 0x1F1E1D1C1B1A19181716151413121110 (rom 1)) = 0x868DC872 ∧
    laneCrc (fold128 0xFEDCBA98765432100123456789ABCDEF 0x1F1E1D1C1B1A19181716151413121110 (rom 0)) = 0x7D30E2AF := by decide +kernel

/-- Table V10. -/
theorem test_reductions : [0x0, 0x1, 0x80000000000000000000000000000000, 0xFFFFFFFFFFFFFFFFFFFFFFFFFFFFFFFF,
      0xFEDCBA98765432100123456789ABCDEF, 0x1F1E1D1C5EF03F32C82676917637AB40].map (fun x => resultLane (barrett (foldTo64 x))) =
    [0x00000000, 0xAE689191, 0xEDB88320, 0xD3088D4F, 0x984FDC4A, 0x1E79542E] := by decide +kernel

/-- Vectors V2, V3 and the single values under table V8. -/
theorem test_scalar :
    scalar 0xFFFFFFFF (ramp 0x31 9) = 0x340BC6D9 ∧ scalar 0xFFFFFFFF [] = 0xFFFFFFFF ∧ scalar 0 (ramp 0x31 9) = 0x2DFD2D88 ∧
    scalar 0xFFFFFFFF [0, 0, 0, 0] = 0xDEBB20E3 ∧ scalar 0xFFFFFFFF [0x61] = 0x174841BC := by decide +kernel

/-! ### Operations -/

/-- P1, first line. -/
theorem test_update : ran .update (presented 0xFFFFFFFF (ramp 0x31 9) 7) (fun t =>
    t.crc == 0xFFFFFFFF && t.len == 9 && t.pos == 0 && t.rem == 9 && t.hwcap == 7 && t.op == 0x01 && t.host == none) = true := by
  decide +kernel

theorem test_update_waits : ran .update State.reset (fun t => t == State.reset) = true := by decide +kernel

/-- P4, second line. -/
theorem test_probe : ran .probe { about .probe 0 0 0 581 [] with hwcap := 7 } (fun t => t.tier == 0b10 && t.op == 0x08) = true := by
  decide +kernel

/-- P1, the first byte. -/
theorem test_sbyte : ran .sbyte (about .sbyte 0 0xFFFFFFFF 0 9 [0x31]) (fun t =>
    t.crc == 0x7C231048 && t.pos == 1 && t.rem == 8 && t.op == 0x02) = true := by decide +kernel

/-- P1, the last byte. -/
theorem test_sbyte_last : ran .sbyte (about .sbyte 0 0x651F2550 8 1 [0x39]) (fun t =>
    t.crc == 0x340BC6D9 && t.pos == 9 && t.rem == 0 && t.op == 0x03) = true := by decide +kernel

/-- P1, last line. -/
theorem test_done : ran .done (aboutX .done 0b01 0x340BC6D9 9 0 [] 1 2 3 4) (fun t =>
    t.crcOut == 0x340BC6D9 && t.op == 0x00 && t.x == .cleared 128) = true := by decide +kernel

theorem test_done_needs_empty_buffer :
    refusal (exec .done (about .done 0 0 0 1 [])) = some (.preconditionViolation .bytesLeft) := by decide +kernel

def p4z0 : U512 := joinLanes 0x0F0E0D0C0B0A090807060504FCFDFEFF 0x1F1E1D1C1B1A19181716151413121110
    0x2F2E2D2C2B2A29282726252423222120 0x3F3E3D3C3B3A39383736353433323130

def p4z1 : U512 := joinLanes 0x4F4E4D4C4B4A49484746454443424140 0x5F5E5D5C5B5A59585756555453525150
    0x6F6E6D6C6B6A69686766656463626160 0x7F7E7D7C7B7A79787776757473727170

def p4z2 : U512 := joinLanes 0x8F8E8D8C8B8A89888786858483828180 0x9F9E9D9C9B9A99989796959493929190
    0xAFAEADACABAAA9A8A7A6A5A4A3A2A1A0 0xBFBEBDBCBBBAB9B8B7B6B5B4B3B2B1B0

def p4z3 : U512 := joinLanes 0xCFCECDCCCBCAC9C8C7C6C5C4C3C2C1C0 0xDFDEDDDCDBDAD9D8D7D6D5D4D3D2D1D0
    0xEFEEEDECEBEAE9E8E7E6E5E4E3E2E1E0 0xFFFEFDFCFBFAF9F8F7F6F5F4F3F2F1F0

def p4f0 : U512 := joinLanes 0x0F0E0D0C026626AA054CDA19B19D4806 0x1F1E1D1C1002B403FF7BFE69B6211130
    0x2F2E2D2C26AF03F8E460E572ABA78DE0 0x3F3E3D3C34CB9151ED69EC7BA0DA0650

def p4f1 : U512 := joinLanes 0x4F4E4D4C4BF46C0ED256D34490AAB440 0x5F5E5D5C5990FEA7DB5FDA4D9BD73FF0
    0x6F6E6D6C6F3D495CC044C1568651A320 0x7F7E7D7C7D59DBF5C94DC85F8D2C2890

def p4f2 : U512 := joinLanes 0x8F8E8D8C9142B3E2BE3ABF28E6B0C700 0x9F9E9D9C8326214BB733B621EDCD4CB0
    0xAFAEADACB58B96B0AC28AD3AF04BD060 0xBFBEBDBCA7EF0419A521A433FB365BD0

def p4f3 : U512 := joinLanes 0xCFCECDCCD8D0F9469A1E9B0CCB46E9C0 0xDFDEDDDCCAB46BEF93179205C03B6270
    0xEFEEEDECFC19DC14880C891EDDBDFEA0 0xFFFEFDFCEE7D4EBD81058017D6C07510

def p4c : U512 := joinLanes 0xCFCECDCC45328C960D43FAC3F3CFFB5A 0xDFDEDDDC7285838CE6469C786904FDA4
    0xEFEEEDEC638D9A043A87BDF31C610062 0xFFFEFDFCA0B674307138A28A8D1E5852

def p4d : U512 := joinLanes 0x0F0E0D0C9CCF3ABAB1714137F93B5B5C 0x1F1E1D1C4C4C132F5E6F6F43E2414128
    0x2F2E2D2CBD9056D61EAFC2DC608A5350 0x3F3E3D3CED246A7EDEEFA656E1335D78

/-- P4. -/
theorem test_wInit : ran .wInit (about .wInit 0b10 0xFFFFFFFF 0 581 (ramp 0 256)) (fun t =>
    t.z == ⟨.valid p4z0, .valid p4z1, .valid p4z2, .valid p4z3⟩ && t.pos == 256 && t.rem == 325 && t.op == 0x09) = true := by
  decide +kernel

theorem test_wInit_short : refusal (exec .wInit (about .wInit 0b10 0 0 255 [])) = some (.preconditionViolation .bufferShort) := by decide +kernel

/-- P4. -/
theorem test_wFold4 : ran .wFold4 (aboutZ .wFold4 0b10 0 256 325 (ramp 0 256) p4z0 p4z1 p4z2 p4z3) (fun t =>
    t.z == ⟨.valid p4f0, .valid p4f1, .valid p4f2, .valid p4f3⟩ && t.pos == 512 && t.rem == 69 && t.op == 0x0A) = true := by
  decide +kernel

theorem test_wFold4_unwritten : fault (exec .wFold4 (about .wFold4 0b10 0 256 256 [])) = some (.unwrittenAccumulator (.z 0)) := by decide +kernel

/-- P4. -/
theorem test_wCollapse : ran .wCollapse (aboutZ .wCollapse 0b10 0 512 69 [] p4f0 p4f1 p4f2 p4f3) (fun t =>
    t.z == ⟨.valid p4c, .valid p4f1, .valid p4f2, .valid p4f3⟩ && t.rem == 69 && t.op == 0x0B) = true := by decide +kernel

/-- P4. -/
theorem test_wFold1 : ran .wFold1 (aboutZ .wFold1 0b10 0 512 69 (ramp 0 64) p4c 1 2 3) (fun t =>
    t.z == ⟨.valid p4d, .valid 1, .valid 2, .valid 3⟩ && t.pos == 576 && t.rem == 5 && t.op == 0x0C) = true := by decide +kernel

/-- P4. -/
theorem test_wHred : ran .wHred (aboutZ .wHred 0b10 0 576 5 [] p4d 0 0 0) (fun t =>
    t.x.r0 == .valid 0x3F3E3D3C7776CE2610E1F1D7DB224EA4 && t.x.r1 == .unwritten && t.op == 0x18) = true := by decide +kernel

/-- P3. -/
theorem test_nInit4 : ran .nInit4 (about .nInit4 0b01 0xFFFFFFFF 0 145 (ramp 0 64)) (fun t =>
    t.x == ⟨.valid 0x0F0E0D0C0B0A090807060504FCFDFEFF, .valid 0x1F1E1D1C1B1A19181716151413121110, .valid 0x2F2E2D2C2B2A29282726252423222120, .valid 0x3F3E3D3C3B3A39383736353433323130⟩ && t.pos == 64 && t.rem == 81 && t.op == 0x11) = true := by decide +kernel

/-- 44_narrow_fold.md rule R151 requires 128 bytes although 64 are read. -/
theorem test_nInit4_short : refusal (exec .nInit4 (about .nInit4 0b01 0 0 127 [])) = some (.preconditionViolation .bufferShort) := by
  decide +kernel

/-- P3. -/
theorem test_nFold4 : ran .nFold4 { about .nFold4 0b01 0 64 81 (ramp 64 64) with x := ⟨.valid 0x0F0E0D0C0B0A090807060504FCFDFEFF, .valid 0x1F1E1D1C1B1A19181716151413121110, .valid 0x2F2E2D2C2B2A29282726252423222120, .valid 0x3F3E3D3C3B3A39383736353433323130⟩ } (fun t =>
    t.x == ⟨.valid 0x4F4E4D4C468D5D5CAE022F959EF806BC, .valid 0x5F5E5D5C5FBE6D8896CAC22DAF13CBC0, .valid 0x6F6E6D6C74EB3CF58BD7DF30A96BB790, .valid 0x7F7E7D7C6DD80C217F232BC454BC63A0⟩ && t.pos == 128 && t.rem == 17 && t.op == 0x12) = true := by decide +kernel

/-- P3. -/
theorem test_nCollapse : ran .nCollapse { about .nCollapse 0b01 0 128 17 [] with x := ⟨.valid 0x4F4E4D4C468D5D5CAE022F959EF806BC, .valid 0x5F5E5D5C5FBE6D8896CAC22DAF13CBC0, .valid 0x6F6E6D6C74EB3CF58BD7DF30A96BB790, .valid 0x7F7E7D7C6DD80C217F232BC454BC63A0⟩ } (fun t =>
    t.x.r0 == .valid 0x7F7E7D7C725FA0F7B69F391E3E7E5BB2 && t.op == 0x14) = true := by decide +kernel

theorem test_nCollapse_no_tier : refusal (exec .nCollapse (aboutX .nCollapse 0b00 0 128 17 [] 0 0 0 0)) = some (.preconditionViolation .tierNone) := by
  decide +kernel

/-- P2. -/
theorem test_nInit1 : ran .nInit1 (about .nInit1 0b01 0xFFFFFFFF 0 20 (ramp 0 16)) (fun t =>
    t.x == ⟨.valid 0x0F0E0D0C0B0A090807060504FCFDFEFF, .unwritten, .unwritten, .unwritten⟩ && t.pos == 16 && t.rem == 4 &&
      t.op == 0x18) = true := by decide +kernel

/-- P3. -/
theorem test_nFold1 : ran .nFold1 (aboutX .nFold1 0b01 0 128 17 (ramp 0x80 16) 0x7F7E7D7C725FA0F7B69F391E3E7E5BB2 0 0 0) (fun t =>
    t.x.r0 == .valid 0x8F8E8D8C2D3F4F4AA0F410EB621E805A && t.pos == 144 && t.rem == 1 && t.op == 0x18) = true := by decide +kernel

/-- P2. -/
theorem test_rFold64 : ran .rFold64 (aboutX .rFold64 0b01 0 16 4 [] 0x0F0E0D0C0B0A090807060504FCFDFEFF 0 0 0) (fun t =>
    t.x.r0 == .valid 0x832B47FC41C07ED0 && t.op == 0x19) = true := by decide +kernel

/-- The platform lacks the narrow feature (rule R211 (c)). -/
theorem test_rFold64_no_feature : refusal (exec .rFold64 { aboutX .rFold64 0b01 0 16 4 [] 0 0 0 0 with
      straps := { State.reset.straps with platform := ⟨false, true, true, false⟩ } }) = some (.preconditionViolation .featureAbsent) := by
  decide +kernel

/-- P2. -/
theorem test_rBarrett : ran .rBarrett (aboutX .rBarrett 0b01 0xFFFFFFFF 16 4 [] 0x832B47FC41C07ED0 0 0 0) (fun t =>
    t.x.r0 == .valid 0x31311D7700000000 && t.crc == 0x31311D77 && t.op == 0x02) = true := by decide +kernel

/-- P3. -/
theorem test_rBarrett_bulk : ran .rBarrett (aboutX .rBarrett 0b01 0 144 0 [] 0x24D42038E71D4C92 0 0 0) (fun t =>
    t.crc == 0x8B1F6674 && t.op == 0x03) = true := by decide +kernel

/-- Table V6. -/
theorem test_clmulLL : stepped (multiply 0x20 0xFEDCBA98765432100123456789ABCDEF (rom 2) 0 0) (fun t => t.mul.dst128 == 0x0000000001587C1D969A97E9D386AFB0 && t.mul.word == none) = true := by
  decide +kernel

theorem test_clmulHL : stepped (multiply 0x21 0xFEDCBA98765432100123456789ABCDEF (rom 2) 0 0) (fun t => t.mul.dst128 == 0x00000000D250F15269656816FF71DD00 && t.mul.word == none) = true := by
  decide +kernel

theorem test_clmulLH : stepped (multiply 0x22 0xFEDCBA98765432100123456789ABCDEF (rom 2) 0 0) (fun t => t.mul.dst128 == 0x0000000000D45A42B6550B930D3AEA6A && t.mul.word == none) = true := by
  decide +kernel

theorem test_clmulHH : stepped (multiply 0x23 0xFEDCBA98765432100123456789ABCDEF (rom 2) 0 0) (fun t => t.mul.dst128 == 0x0000000044B25A3749AAF46CB6A315E0 && t.mul.word == none) = true := by
  decide +kernel

/-- Table V6 in two of the four sub-lanes, zero and one in the others: a product of zero is zero, a product of one is the other operand. -/
theorem test_vclmulLL : stepped (multiply 0x24 0 0 (joinLanes 0xFEDCBA98765432100123456789ABCDEF 0 1 0xFEDCBA98765432100123456789ABCDEF) (bcast (rom 2))) (fun t =>
    t.mul.dst512 == joinLanes 0x0000000001587C1D969A97E9D386AFB0 0 0x1751997D0 0x0000000001587C1D969A97E9D386AFB0) = true := by decide +kernel

theorem test_vclmulHL : stepped (multiply 0x25 0 0 (joinLanes 0xFEDCBA98765432100123456789ABCDEF 0 1 0xFEDCBA98765432100123456789ABCDEF) (bcast (rom 2))) (fun t =>
    t.mul.dst512 == joinLanes 0x00000000D250F15269656816FF71DD00 0 0 0x00000000D250F15269656816FF71DD00) = true := by decide +kernel

theorem test_vclmulLH : stepped (multiply 0x26 0 0 (joinLanes 0xFEDCBA98765432100123456789ABCDEF 0 1 0xFEDCBA98765432100123456789ABCDEF) (bcast (rom 2))) (fun t =>
    t.mul.dst512 == joinLanes 0x0000000000D45A42B6550B930D3AEA6A 0 0xCCAA009E 0x0000000000D45A42B6550B930D3AEA6A) = true := by decide +kernel

theorem test_vclmulHH : stepped (multiply 0x27 0 0 (joinLanes 0xFEDCBA98765432100123456789ABCDEF 0 1 0xFEDCBA98765432100123456789ABCDEF) (bcast (rom 2))) (fun t =>
    t.mul.dst512 == joinLanes 0x0000000044B25A3749AAF46CB6A315E0 0 0 0x0000000044B25A3749AAF46CB6A315E0) = true := by decide +kernel

/-- The wide multiply is absent (rule R211 (c)). -/
theorem test_vclmul_no_feature : refusal (exec .vclmulLL { multiply 0x24 0 0 0 0 with
      straps := { State.reset.straps with platform := ⟨true, true, false, false⟩ } }) = some (.preconditionViolation .featureAbsent) := by
  decide +kernel

/-! ### Witnesses: for each statement with hypotheses, a state and operands that meet them together -/

theorem witness_OpcodeMapIsComplete : decodeWord 0x1F = .error .reservedCode ∧ decodeWord 0x19 = .ok .rBarrett ∧ decodeWord 0x20 = .ok .clmulLL := by
  decide

theorem witness_DecodeEncodeAgree : Instr.wf .vclmulHH = true ∧ decodeWord 0x27 = .ok .vclmulHH := by decide

/-- Each end of each reserved range; and a completing operation whose `OP` holds an assigned code. -/
theorem witness_ReservedWordsRefused :
    (∀ w ∈ ([0x04, 0x07, 0x0D, 0x0F, 0x15, 0x17, 0x1A, 0x1F, 0x28, 0xFF] : List U8),
      ((0x04 ≤ w.toNat ∧ w.toNat ≤ 0x07) ∨ (0x0D ≤ w.toNat ∧ w.toNat ≤ 0x0F) ∨ (0x15 ≤ w.toNat ∧ w.toNat ≤ 0x17) ∨
        (0x1A ≤ w.toNat ∧ w.toNat ≤ 0x1F) ∨ 0x28 ≤ w.toNat) ∧
        ((fetchWord (State.reset.placeWord w) = w ∧ (State.reset.placeWord w).mul.word = none) ∨
          (State.reset.placeWord w).mul.word = some w)) ∧
    (∃ t, exec .probe (about .probe 0 0 0 0 []) = .next t ∧ true = true) ∧
    decodeS (about .probe 0 0 0 0 []).op = .ok .probe ∧ decodeWord 0x19 = .ok .rBarrett :=
  ⟨by decide, next_of_ran (p := fun _ => true) (by decide +kernel), by decide, by decide⟩

theorem witness_StepRunsDecodedOperation :
    decodeWord (fetchWord State.reset) = .ok .update ∧ Instr.wf .update = true ∧ State.reset.mul.word = none ∧
    (multiply 0x21 1 2 0 0).mul.word = some 0x21 ∧ decodeWord 0x21 = .ok .clmulHL ∧ Instr.format .clmulHL = .m ∧
    decodeWord (fetchWord (multiply 0x21 1 2 0 0)) = .ok .update ∧
    (multiply 0x02 1 2 0 0).mul.word = some 0x02 ∧ decodeWord 0x02 = .ok .sbyte ∧ Instr.format .sbyte = .s ∧
    stepped (multiply 0x21 1 2 0 0) (fun _ => true) = true := by decide +kernel

theorem witness_NextOperationRelation :
    (∃ t, exec .update State.reset = .next t ∧ (t.op == 0x00) = true) ∧
    (∃ t, exec .update (presented 0 [] 0) = .next t ∧ (t.op == 0x01) = true) ∧
    (∃ t, exec .sbyte (about .sbyte 0 0 0 1 []) = .next t ∧ (t.op == 0x03) = true) ∧
    (∃ t, exec .sbyte (about .sbyte 0 0 0 2 []) = .next t ∧ (t.op == 0x02) = true) ∧
    (∃ t, exec .clmulLL (multiply 0x20 0 0 0 0) = .next t ∧ (t.op == 0x00) = true) ∧
    (∃ t, exec .nInit4 (about .nInit4 1 0 0 128 []) = .next t ∧ (t.op == 0x11) = true) :=
  ⟨next_of_ran (by decide +kernel), next_of_ran (by decide +kernel), next_of_ran (by decide +kernel), next_of_ran (by decide +kernel),
    next_of_ran (by decide +kernel), next_of_ran (by decide +kernel)⟩

theorem witness_CursorAccounting :
    ((presented 0 [1] 0).host = some ⟨0, 1, 0⟩ ∧ ∃ t, exec .update (presented 0 [1] 0) = .next t ∧ (t.rem == 1) = true) ∧
    ((about .nInit1 1 0 0 16 []).pos + (about .nInit1 1 0 0 16 []).rem = (about .nInit1 1 0 0 16 []).len ∧
      ∃ t, exec .nInit1 (about .nInit1 1 0 0 16 []) = .next t ∧ (t.rem == 0) = true) :=
  ⟨⟨by decide, next_of_ran (by decide +kernel)⟩, by decide, next_of_ran (by decide +kernel)⟩

/-- Two buffers that differ beyond the byte `SBYTE` reads. -/
theorem witness_OutcomeIgnoresUnreadBytes :
    (∀ a, (about .sbyte 0 0 0 2 [1, 2]).pos ≤ a → a < (about .sbyte 0 0 0 2 [1, 2]).pos + bytesRead .sbyte →
      Memory.read [(0, 1), (1, 3)] a = (about .sbyte 0 0 0 2 [1, 2]).mem.read a) ∧
    ([(0, 1), (1, 3)] : Memory) ≠ (about .sbyte 0 0 0 2 [1, 2]).mem := by
  refine ⟨fun a _ h => ?_, by decide⟩
  have : a = 0 := by
    have : a < 0 + 1 := h
    omega
  subst this
  decide

theorem witness_BufferAndStrapsNeverWritten : ∃ t, exec .done (about .done 0 5 3 0 [1]) = .next t ∧ (t.crcOut == 5) = true :=
  next_of_ran (by decide +kernel)

/-- The last index of each range. -/
theorem witness_MemReadIsLittleEndian : (15 < 16) ∧ (63 < 64) ∧ (3 < 4) := by decide

/-- An operation for which each clause of the frame has its condition. -/
theorem witness_OperationsWriteOnlyTheirRegisters :
    (∃ t, exec .probe (about .probe 0 0 0 0 []) = .next t ∧ true = true) ∧
    (writesCrc .probe = false ∧ writesX0 .probe = false ∧ writesX123 .probe = false ∧ writesZ0 .probe = false ∧
      writesZ123 .probe = false ∧ writesCursor .probe = false ∧ endsCommand .probe = false ∧ Instr.format .probe = .s) ∧
    (∃ t, exec .clmulHH (multiply 0x23 1 1 0 0) = .next t ∧ true = true) ∧ writesTier .clmulHH = false ∧ Instr.format .clmulHH = .m :=
  ⟨next_of_ran (p := fun _ => true) (by decide +kernel), by decide, next_of_ran (p := fun _ => true) (by decide +kernel), by decide, by decide⟩

/-- Two states that agree in `HWCAP`, `REM` and the straps only. -/
theorem witness_ProbeIsPure :
    (about .probe 0 5 0 16 [1]).hwcap = (about .done 2 7 9 16 []).hwcap ∧ (about .probe 0 5 0 16 [1]).rem = (about .done 2 7 9 16 []).rem ∧
    (about .probe 0 5 0 16 [1]).straps = (about .done 2 7 9 16 []).straps := by decide

/-- The least lengths that take each branch. -/
theorem witness_TierGuarantees :
    (∃ t, exec .probe { about .probe 0 0 0 512 [] with hwcap := 7 } = .next t ∧
      (t.tier == 0b10 && t.op == 0x08 && t.straps.wideMin == .bytes512) = true) ∧
    (∃ t, exec .probe { about .probe 0 0 0 16 [] with hwcap := 7 } = .next t ∧ (t.tier == 0b01 && t.op == 0x13) = true) ∧
    (∃ t, exec .probe { about .probe 0 0 0 128 [] with hwcap := 7 } = .next t ∧ (t.tier == 0b01 && t.op == 0x10) = true) ∧
    (∃ t, exec .wInit (about .wInit 2 0 0 512 []) = .next t ∧ (t.rem == 256) = true) ∧
    (∃ t, exec .nInit4 (about .nInit4 1 0 0 128 []) = .next t ∧ (t.rem == 64) = true) ∧
    (Inv (about .nInit1 1 0 0 16 []) ∧ decodeWord (fetchWord (about .nInit1 1 0 0 16 [])) = .ok .nInit1 ∧ isVector .nInit1 = true) :=
  ⟨next_of_ran (by decide +kernel), next_of_ran (by decide +kernel), next_of_ran (by decide +kernel), next_of_ran (by decide +kernel),
    next_of_ran (by decide +kernel), by decide +kernel⟩

/-- A big-endian platform's word; and an idle machine with a command that takes the scalar path. -/
theorem witness_ScalarPathDeliversScalarCrc :
    (⟨0, 32, 0xF⟩ : Command).hwcap.getLsbD 3 = true ∧
    (presented 1 [1, 2] 0).op = 0x00#5 ∧ (presented 1 [1, 2] 0).mul.word = none ∧ (presented 1 [1, 2] 0).host = some ⟨1, 2, 0⟩ ∧
    Command.wf (presented 1 [1, 2] 0).straps.lenBits ⟨1, 2, 0⟩ = true ∧ commandTier (presented 1 [1, 2] 0) ⟨1, 2, 0⟩ = 0b00#2 := by decide

theorem witness_SbyteConsumesOneByte :
    (about .sbyte 0 0 8 1 [0x39]).tier ≠ 0b11#2 ∧ 1 ≤ (about .sbyte 0 0 8 1 [0x39]).rem ∧
    (about .sbyte 0 0 8 1 [0x39]).pos + 1 ≤ (about .sbyte 0 0 8 1 [0x39]).len := by decide

/-- All the bytes that are left. -/
theorem witness_SbyteRunIsScalar :
    (about .sbyte 2 0 3 9 []).op = 0x02#5 ∧ (about .sbyte 2 0 3 9 []).mul.word = none ∧ (about .sbyte 2 0 3 9 []).tier ≠ 0b11#2 ∧
    9 ≤ (about .sbyte 2 0 3 9 []).rem ∧ (about .sbyte 2 0 3 9 []).pos + (about .sbyte 2 0 3 9 []).rem = (about .sbyte 2 0 3 9 []).len := by
  decide

theorem witness_ScalarSplitsAndIsLinear : ([1, 2, 3] : List U8).length = ([4, 5, 6] : List U8).length := by decide

/-- The last bit of a product. -/
theorem witness_ClmulIsCarryLessProduct : 127 < 128 := by decide

/-- The widest operands, the highest single bit, and a constant of 33 bits. -/
theorem witness_ClmulLaws :
    (63 < 64) ∧ (1 ≤ 64 ∧ (0xFFFFFFFFFFFFFFFF#64).toNat < 2 ^ 64) ∧ (1 ≤ 1 ∧ (1#64).toNat < 2 ^ 1) ∧ (0x1FFFFFFFF#64).toNat < 2 ^ 33 := by
  decide

theorem witness_NarrowMultiplierCommands : State.reset.straps.platform.nclmul = true := by decide

theorem witness_WideMultiplierCommands : State.reset.straps.platform.wclmul = true ∧ State.reset.straps.platform.v512 = true := by decide

/-- The last sub-lane, in values that differ in the others. -/
theorem witness_SubLanesAreIndependent :
    3 < 4 ∧ lane (joinLanes 1 2 3 4) 3 = lane (joinLanes 5 6 7 4) 3 ∧ lane (bcast 9) 3 = lane (joinLanes 0 0 0 9) 3 := by decide

theorem witness_Fold512IsFold128PerLane : (0 < 4) ∧ 3 < 4 := by decide

theorem witness_RomComesFromThePolynomial : ((2 : Fin 6).val, 128) ∈ [(0, 2048), (1, 512), (2, 128)] := by decide

/-- A pair with another low element and one with another high element. -/
theorem witness_FoldLaw :
    ((2 : Fin 6).val, 128) ∈ [(0, 2048), (1, 512), (2, 128)] ∧
    laneCrc ((half .lo 1).setWidth 128) ≠ laneCrc ((half .lo (rom 2)).setWidth 128) ∧
    laneCrc ((half .hi 1).setWidth 128) ≠ laneCrc ((half .hi (rom 2)).setWidth 128) := by decide +kernel

/-- The least `REM` of each wide operation. -/
theorem witness_WInitLoadsFourLanes :
    (about .wInit 2 0 0 256 []).tier ≠ 0b11#2 ∧ (about .wInit 2 0 0 256 []).tier ≠ 0b00#2 ∧
    hasFeature (about .wInit 2 0 0 256 []).straps.platform .wideLanes = true ∧ 256 ≤ (about .wInit 2 0 0 256 []).rem ∧
    (about .wInit 2 0 0 256 []).pos + 256 ≤ (about .wInit 2 0 0 256 []).len := by decide

theorem witness_WFold4FoldsEachAccumulator :
    (aboutZ .wFold4 2 0 256 256 [] 1 2 3 4).tier ≠ 0b11#2 ∧ (aboutZ .wFold4 2 0 256 256 [] 1 2 3 4).tier ≠ 0b00#2 ∧
    hasFeature (aboutZ .wFold4 2 0 256 256 [] 1 2 3 4).straps.platform .wideLanes = true ∧
    256 ≤ (aboutZ .wFold4 2 0 256 256 [] 1 2 3 4).rem ∧
    (aboutZ .wFold4 2 0 256 256 [] 1 2 3 4).pos + 256 ≤ (aboutZ .wFold4 2 0 256 256 [] 1 2 3 4).len ∧
    (aboutZ .wFold4 2 0 256 256 [] 1 2 3 4).z = ⟨.valid 1, .valid 2, .valid 3, .valid 4⟩ := by decide +kernel

theorem witness_WCollapseFoldsIntoZ0 :
    (aboutZ .wCollapse 2 0 512 0 [] 1 2 3 4).tier ≠ 0b11#2 ∧ (aboutZ .wCollapse 2 0 512 0 [] 1 2 3 4).tier ≠ 0b00#2 ∧
    hasFeature (aboutZ .wCollapse 2 0 512 0 [] 1 2 3 4).straps.platform .wideLanes = true ∧
    (aboutZ .wCollapse 2 0 512 0 [] 1 2 3 4).z = ⟨.valid 1, .valid 2, .valid 3, .valid 4⟩ := by decide +kernel

theorem witness_WFold1FoldsOneLane :
    (aboutZ .wFold1 2 0 512 64 [] 1 2 3 4).tier ≠ 0b11#2 ∧ (aboutZ .wFold1 2 0 512 64 [] 1 2 3 4).tier ≠ 0b00#2 ∧
    hasFeature (aboutZ .wFold1 2 0 512 64 [] 1 2 3 4).straps.platform .wideLanes = true ∧
    64 ≤ (aboutZ .wFold1 2 0 512 64 [] 1 2 3 4).rem ∧
    (aboutZ .wFold1 2 0 512 64 [] 1 2 3 4).pos + 64 ≤ (aboutZ .wFold1 2 0 512 64 [] 1 2 3 4).len ∧
    (aboutZ .wFold1 2 0 512 64 [] 1 2 3 4).z.r0 = .valid 1 := by decide +kernel

theorem witness_WHredFoldsSubLanes :
    (aboutZ .wHred 2 0 512 0 [] 1 2 3 4).tier ≠ 0b11#2 ∧ (aboutZ .wHred 2 0 512 0 [] 1 2 3 4).tier ≠ 0b00#2 ∧
    hasFeature (aboutZ .wHred 2 0 512 0 [] 1 2 3 4).straps.platform .wideLanes = true ∧
    hasFeature (aboutZ .wHred 2 0 512 0 [] 1 2 3 4).straps.platform .narrowLanes = true ∧
    (aboutZ .wHred 2 0 512 0 [] 1 2 3 4).z.r0 = .valid 1 := by decide +kernel

/-- The least `REM` of each narrow operation. -/
theorem witness_NInit4LoadsFourLanes :
    (about .nInit4 1 0 0 128 []).tier ≠ 0b11#2 ∧ (about .nInit4 1 0 0 128 []).tier ≠ 0b00#2 ∧
    hasFeature (about .nInit4 1 0 0 128 []).straps.platform .narrowLanes = true ∧ 128 ≤ (about .nInit4 1 0 0 128 []).rem ∧
    (about .nInit4 1 0 0 128 []).pos + 64 ≤ (about .nInit4 1 0 0 128 []).len := by decide

theorem witness_NFold4FoldsEachAccumulator :
    (aboutX .nFold4 1 0 64 64 [] 1 2 3 4).tier ≠ 0b11#2 ∧ (aboutX .nFold4 1 0 64 64 [] 1 2 3 4).tier ≠ 0b00#2 ∧
    hasFeature (aboutX .nFold4 1 0 64 64 [] 1 2 3 4).straps.platform .narrowLanes = true ∧
    64 ≤ (aboutX .nFold4 1 0 64 64 [] 1 2 3 4).rem ∧
    (aboutX .nFold4 1 0 64 64 [] 1 2 3 4).pos + 64 ≤ (aboutX .nFold4 1 0 64 64 [] 1 2 3 4).len ∧
    (aboutX .nFold4 1 0 64 64 [] 1 2 3 4).x = ⟨.valid 1, .valid 2, .valid 3, .valid 4⟩ := by decide

theorem witness_NCollapseFoldsIntoX0 :
    (aboutX .nCollapse 1 0 128 0 [] 1 2 3 4).tier ≠ 0b11#2 ∧ (aboutX .nCollapse 1 0 128 0 [] 1 2 3 4).tier ≠ 0b00#2 ∧
    hasFeature (aboutX .nCollapse 1 0 128 0 [] 1 2 3 4).straps.platform .narrowLanes = true ∧
    (aboutX .nCollapse 1 0 128 0 [] 1 2 3 4).x = ⟨.valid 1, .valid 2, .valid 3, .valid 4⟩ := by decide

theorem witness_NInit1LoadsOneLane :
    (about .nInit1 1 0 0 16 []).tier ≠ 0b11#2 ∧ (about .nInit1 1 0 0 16 []).tier ≠ 0b00#2 ∧
    hasFeature (about .nInit1 1 0 0 16 []).straps.platform .narrowLanes = true ∧ 16 ≤ (about .nInit1 1 0 0 16 []).rem ∧
    (about .nInit1 1 0 0 16 []).pos + 16 ≤ (about .nInit1 1 0 0 16 []).len := by decide

theorem witness_NFold1FoldsOneLane :
    (aboutX .nFold1 1 0 16 16 [] 1 2 3 4).tier ≠ 0b11#2 ∧ (aboutX .nFold1 1 0 16 16 [] 1 2 3 4).tier ≠ 0b00#2 ∧
    hasFeature (aboutX .nFold1 1 0 16 16 [] 1 2 3 4).straps.platform .narrowLanes = true ∧
    16 ≤ (aboutX .nFold1 1 0 16 16 [] 1 2 3 4).rem ∧
    (aboutX .nFold1 1 0 16 16 [] 1 2 3 4).pos + 16 ≤ (aboutX .nFold1 1 0 16 16 [] 1 2 3 4).len ∧
    (aboutX .nFold1 1 0 16 16 [] 1 2 3 4).x.r0 = .valid 1 := by decide

theorem witness_ReductionOperationsComplete :
    (aboutX .rFold64 1 0 16 0 [] 7 0 0 0).tier ≠ 0b11#2 ∧ (aboutX .rFold64 1 0 16 0 [] 7 0 0 0).tier ≠ 0b00#2 ∧
    hasFeature (aboutX .rFold64 1 0 16 0 [] 7 0 0 0).straps.platform .narrowLanes = true ∧
    (aboutX .rFold64 1 0 16 0 [] 7 0 0 0).x.r0 = .valid 7 := by decide

/-- Sixteen zero bytes consumed from the `crc_in` that stands in the low word of `X[0]`. -/
theorem witness_ReductionLaw :
    (aboutX .rFold64 1 7 16 0 [] 7 0 0 0).tier ≠ 0b11#2 ∧ (aboutX .rFold64 1 7 16 0 [] 7 0 0 0).tier ≠ 0b00#2 ∧
    hasFeature (aboutX .rFold64 1 7 16 0 [] 7 0 0 0).straps.platform .narrowLanes = true ∧
    (aboutX .rFold64 1 7 16 0 [] 7 0 0 0).x.r0 = .valid 7 ∧
    scalar 0 (le16 7) = scalar 7 ((aboutX .rFold64 1 7 16 0 [] 7 0 0 0).mem.bytes 0 (aboutX .rFold64 1 7 16 0 [] 7 0 0 0).pos) := by
  decide +kernel

/-- The longest command four-bit counters take. -/
theorem witness_UpdateAcceptsTheCommand :
    ({ State.reset with host := some ⟨1, 15, 0⟩, straps := { State.reset.straps with lenBits := some 4 } } : State).op = 0x00#5 ∧
    ({ State.reset with host := some ⟨1, 15, 0⟩, straps := { State.reset.straps with lenBits := some 4 } } : State).host = some ⟨1, 15, 0⟩ ∧
    Command.wf (some 4) ⟨1, 15, 0⟩ = true := by decide

theorem witness_UpdateNeedsIdleAndACommand :
    State.reset.op = 0x00#5 ∧ State.reset.host = none ∧ State.reset.mul.word = none ∧ (about .probe 0 0 0 0 []).op ≠ 0x00#5 := by decide

theorem witness_DoneDeliversTheResult : (about .done 2 0 9 0 []).tier ≠ 0b11#2 ∧ (about .done 2 0 9 0 []).rem = 0 := by decide

/-- Each clause: a command accepted, one delivered, each kind of write, and a read of an unwritten accumulator with all else in order. -/
theorem witness_ValidityMarks :
    ((presented 0 [] 0).host = some ⟨0, 0, 0⟩ ∧ ∃ t, exec .update (presented 0 [] 0) = .next t ∧ true = true) ∧
    (∃ t, exec .done (about .done 0 0 0 0 []) = .next t ∧ true = true) ∧
    (∃ t, exec .nInit4 (about .nInit4 1 0 0 128 []) = .next t ∧
      (writesX0 .nInit4 && writesX123 .nInit4 && !endsCommand .nInit4) = true) ∧
    (∃ t, exec .wInit (about .wInit 2 0 0 256 []) = .next t ∧ (writesZ0 .wInit && writesZ123 .wInit && !endsCommand .wInit) = true) ∧
    (accumulatorsReady .nFold4 (about .nFold4 1 0 64 64 []) = false ∧ (about .nFold4 1 0 64 64 []).tier ≠ 0b11#2 ∧
      (about .nFold4 1 0 64 64 []).tier ≠ 0b00#2 ∧
      (∀ f ∈ featuresNeeded .nFold4, hasFeature (about .nFold4 1 0 64 64 []).straps.platform f = true) ∧
      bytesRequired .nFold4 ≤ (about .nFold4 1 0 64 64 []).rem ∧
      (about .nFold4 1 0 64 64 []).pos + bytesRead .nFold4 ≤ (about .nFold4 1 0 64 64 []).len) ∧
    Inv State.reset :=
  ⟨⟨by decide, next_of_ran (p := fun _ => true) (by decide +kernel)⟩, next_of_ran (p := fun _ => true) (by decide +kernel),
    next_of_ran (p := fun _ => writesX0 .nInit4 && writesX123 .nInit4 && !endsCommand .nInit4) (by decide +kernel),
    next_of_ran (p := fun _ => writesZ0 .wInit && writesZ123 .wInit && !endsCommand .wInit) (by decide +kernel), by decide, by decide +kernel⟩

/-- One violation of each kind: no tier, a reserved tier, a feature absent, one byte too few, a read past the end, a byte left. -/
theorem witness_ViolationsAreRefusedByName :
    (isVector .rBarrett = true ∧ (about .rBarrett 0 0 0 0 []).tier = 0b00#2) ∧
    (runsAfterProbe .sbyte = true ∧ (about .sbyte 3 0 0 1 []).tier = 0b11#2) ∧
    ((about .wHred 2 0 0 0 []).tier ≠ 0b11#2 ∧ (about .wHred 2 0 0 0 []).tier ≠ 0b00#2 ∧
      ∃ f ∈ featuresNeeded .wHred, hasFeature ⟨false, true, true, false⟩ f = false) ∧
    ((about .nInit4 1 0 0 127 []).rem < bytesRequired .nInit4) ∧
    (bytesRequired .nInit1 ≤ ({ about .nInit1 1 0 0 16 [] with len := 15 } : State).rem ∧
      ({ about .nInit1 1 0 0 16 [] with len := 15 } : State).len < ({ about .nInit1 1 0 0 16 [] with len := 15 } : State).pos + bytesRead .nInit1) ∧
    ((about .done 0 0 0 1 []).rem ≠ 0 ∧ (about .done 0 0 0 1 []).tier ≠ 0b11#2) := by decide

theorem witness_PlatformResetAbandonsTheCommand :
    lenFits (some 4) 15 = true ∧ lenFits State.reset.straps.lenBits 4097 = true ∧ Truthful State.reset.straps.platform 0xFFFFFFFF ∧
    Truthful ⟨true, false, false, true⟩ 0x9 := by decide

/-- A state before each operation but `UPDATE`, `W.FOLD4`, `W.COLLAPSE` and `R.BARRETT`, at a boundary of its `REM`: `crc` is the `crc_in`, and the bytes consumed are zero, so the
accumulators hold `crc` in their low word. -/
def underway (crc : U32) : List State :=
  [{ about .probe 0 crc 0 16 [] with hwcap := 1 },
    about .wInit 2 crc 0 256 [],
    aboutZ .wFold1 2 crc 64 64 [] (crc.setWidth 512) 1 2 3,
    aboutZ .wHred 2 crc 64 63 [] (crc.setWidth 512) 1 2 3,
    about .nInit4 1 crc 0 128 [],
    aboutX .nFold4 1 crc 64 64 [] (crc.setWidth 128) 0 0 0,
    aboutX .nCollapse 1 crc 64 63 [] (crc.setWidth 128) 0 0 0,
    about .nInit1 1 crc 0 16 [],
    aboutX .nFold1 1 crc 16 16 [] (crc.setWidth 128) 1 2 3,
    aboutX .rFold64 1 crc 16 15 [] (crc.setWidth 128) 1 2 3,
    about .sbyte 0 crc 0 1 [],
    about .done 0 crc 0 0 []]

theorem witness_StepKeepsInvariant : ∀ s ∈ presented 7 [1] 7 :: underway 0x12345678, Inv s ∧ stepped s (fun _ => true) = true := by
  decide +kernel

/-- Before `W.FOLD4` and `W.COLLAPSE`: 256 zero bytes consumed from the `crc_in` zero. -/
def underwayWide : List State := [aboutZ .wFold4 2 0 256 256 [] 0 0 0 0, aboutZ .wCollapse 2 0 256 255 [] 0 0 0 0]

theorem witness_StepKeepsInvariant_wide : ∀ s ∈ underwayWide, Inv s ∧ stepped s (fun _ => true) = true := by decide +kernel

theorem witness_StepKeepsInvariant_barrett :
    Inv (aboutX .rBarrett 1 0 16 0 [] 0x832B47FC41C07ED0 0 0 0) ∧
    stepped (aboutX .rBarrett 1 0 16 0 [] 0x832B47FC41C07ED0 0 0 0) (fun _ => true) = true := by decide +kernel

theorem witness_InvariantStatesNeverStop : Inv State.reset ∧ ∀ s ∈ underway 0xFFFFFFFF, Inv s := by decide +kernel

theorem witness_AccumulatorsStandForConsumedBytes :
    (presented 7 [1] 7).host = some ⟨7, 1, 7⟩ ∧ ran .update (presented 7 [1] 7) (fun _ => true) = true := by decide +kernel

/-- In each of these states the accumulators stand for what has been consumed. -/
theorem witness_AccumulatorsStandForConsumedBytes_underway :
    ∀ s ∈ underway 0x12345678, Inv s ∧ StandsFor 0x12345678 s ∧ s.op ≠ 0x00#5 ∧ stepped s (fun _ => true) = true := by decide +kernel

/-- A zero CRC stays zero over zero bytes (40_scalar.md rule R93, corner case). -/
theorem scalar_zeros (n : Nat) : scalar 0 (List.replicate n 0) = 0 := by
  induction n with
  | zero => rfl
  | succ n ih =>
    have : crcStep 0 0 = 0 := by decide
    rw [List.replicate_succ, scalar, this, ih]

theorem bytes_of_empty (a n : Nat) : Memory.bytes [] a n = List.replicate n 0 := by
  induction n generalizing a with
  | zero => rfl
  | succ n ih => rw [Memory.bytes, ih, List.replicate_succ]; rfl

theorem witness_AccumulatorsStandForConsumedBytes_wide : ∀ s ∈ underwayWide, StandsFor 0 s := by
  have hz : wideBytes ⟨.valid 0, .valid 0, .valid 0, .valid 0⟩ = List.replicate 256 0 := by decide +kernel
  have hs : scalar 0 (wideBytes ⟨.valid 0, .valid 0, .valid 0, .valid 0⟩) = scalar 0 (Memory.bytes [] 0 256) := by
    rw [hz, bytes_of_empty]
  intro s h
  simp only [underwayWide, List.mem_cons, List.not_mem_nil, or_false] at h
  rcases h with rfl | rfl
  · exact ⟨fun h => absurd h (by decide), fun _ => hs, fun h => absurd h (by decide), fun h => absurd h (by decide), fun h => absurd h (by decide),
      fun h => absurd h (by decide), fun h => absurd h (by decide), fun _ => rfl⟩
  · exact ⟨fun h => absurd h (by decide), fun _ => hs, fun h => absurd h (by decide), fun h => absurd h (by decide), fun h => absurd h (by decide),
      fun h => absurd h (by decide), fun h => absurd h (by decide), fun _ => rfl⟩

theorem witness_AccumulatorsStandForConsumedBytes_barrett :
    Inv (aboutX .rBarrett 1 0 16 0 [] 0 1 2 3) ∧ StandsFor 0 (aboutX .rBarrett 1 0 16 0 [] 0 1 2 3) := by decide +kernel

theorem witness_AccumulatorsStandForConsumedBytes_done : (about .done 0 0x12345678 0 0 []).op = 0x03#5 := by decide

/-- Idle, with a command for the scalar path and one for each vector tier. -/
theorem witness_CommandDeliversScalarCrc :
    CommandReady (presented 0xFFFFFFFF [] 0) ⟨0xFFFFFFFF, 0, 0⟩ ∧ CommandReady (presented 1 (ramp 0 16) 1) ⟨1, 16, 1⟩ ∧
    CommandReady (presented 2 (ramp 0 512) 0xFFFFFFFF) ⟨2, 512, 0xFFFFFFFF⟩ := by decide +kernel

theorem witness_CommandRunsItsSequence :
    CommandReady (presented 1 (ramp 0 15) 1) ⟨1, 15, 1⟩ ∧ CommandReady (presented 1 (ramp 0 127) 1) ⟨1, 127, 1⟩ ∧
    CommandReady (presented 1 (ramp 0 128) 1) ⟨1, 128, 1⟩ ∧ CommandReady (presented 1 (ramp 0 512) 7) ⟨1, 512, 7⟩ ∧
    commandTier (presented 1 (ramp 0 512) 7) ⟨1, 512, 7⟩ = 0b10#2 := by decide +kernel

/-- `R.BARRETT` is reached four steps into a command of sixteen bytes. -/
theorem witness_CommandRunsItsSequence_barrett :
    4 < operationCount (commandTier (presented 1 (ramp 0 16) 1) ⟨1, 16, 1⟩) 16 ∧ goesOn 4 (presented 1 (ramp 0 16) 1) = true ∧
    (after 4 (presented 1 (ramp 0 16) 1)).op = 0x19#5 := by decide +kernel

/-- `61` then `62` as two commands, and `61 62` as one. -/
theorem witness_SplittingInvariance :
    CommandReady (presented 5 [0x61] 0) ⟨5, 1, 0⟩ ∧
    CommandReady (presented (scalar 5 [0x61]) [0x62] 7) ⟨scalar 5 [0x61], 1, 7⟩ ∧ CommandReady (presented 5 [0x61, 0x62] 7) ⟨5, 2, 7⟩ ∧
    CommandEndsIn (presented 5 [0x61] 0) ⟨5, 1, 0⟩ (after 4 (presented 5 [0x61] 0)) ∧
    CommandEndsIn (presented (scalar 5 [0x61]) [0x62] 7) ⟨scalar 5 [0x61], 1, 7⟩ (after 4 (presented (scalar 5 [0x61]) [0x62] 7)) ∧
    CommandEndsIn (presented 5 [0x61, 0x62] 7) ⟨5, 2, 7⟩ (after 5 (presented 5 [0x61, 0x62] 7)) ∧
    scalar 5 [0x61] = (after 4 (presented 5 [0x61] 0)).crcOut ∧
    (presented 5 [0x61, 0x62] 7).mem.bytes 0 2 = (presented 5 [0x61] 0).mem.bytes 0 1 ++ (presented (scalar 5 [0x61]) [0x62] 7).mem.bytes 0 1 :=
  ⟨by decide +kernel, by decide +kernel, by decide +kernel, run_of_goesOn (by decide +kernel), run_of_goesOn (by decide +kernel),
    run_of_goesOn (by decide +kernel), by decide +kernel, by decide +kernel⟩

/-- Sixteen bytes through the scalar path and through the narrow tier. -/
theorem witness_TierEquivalence :
    CommandReady (presented 5 (ramp 1 16) 0) ⟨5, 16, 0⟩ ∧ CommandReady (presented 5 (ramp 1 16) 1) ⟨5, 16, 1⟩ ∧
    CommandEndsIn (presented 5 (ramp 1 16) 0) ⟨5, 16, 0⟩ (after 19 (presented 5 (ramp 1 16) 0)) ∧
    CommandEndsIn (presented 5 (ramp 1 16) 1) ⟨5, 16, 1⟩ (after 6 (presented 5 (ramp 1 16) 1)) ∧
    (presented 5 (ramp 1 16) 0).mem.bytes 0 16 = (presented 5 (ramp 1 16) 1).mem.bytes 0 16 :=
  ⟨by decide +kernel, by decide +kernel, run_of_goesOn (by decide +kernel), run_of_goesOn (by decide +kernel), by decide +kernel⟩

/-- An idle machine with a command, every unspecified register changed. -/
def otherwise : State :=
  { presented 5 [1] 7 with
    crc := 9
    crcOut := 8
    pos := 7
    rem := 6
    len := 5
    hwcap := 4
    tier := 3
    draws := 12
    x := ⟨.valid 1, .unwritten, .unwritten, .unwritten⟩ }

theorem witness_UnspecifiedRegistersAreNeverRead :
    ∀ s ∈ [presented 5 [1] 7, otherwise], s.op = 0x00#5 ∧ s.host = some ⟨5, 1, 7⟩ ∧ s.straps = State.reset.straps ∧ s.mem = [(0, 1)] ∧
      s.mul = State.reset.mul ∧ s.mul.word = none ∧ Command.wf s.straps.lenBits ⟨5, 1, 7⟩ = true := by decide +kernel

/-- An operation that is neither end of a command, completing. -/
theorem witness_UnspecifiedRegistersAreNeverRead_within :
    Instr.wFold4 ≠ .update ∧ Instr.wFold4 ≠ .done ∧ ran .wFold4 (aboutZ .wFold4 2 0 256 256 [] 1 2 3 4) (fun _ => true) = true := by
  decide +kernel

theorem witness_DebugAssertHasNoEffect :
    Inv (about .nInit1 1 0 0 16 []) ∧ decodeWord (fetchWord (about .nInit1 1 0 0 16 [])) = .ok .nInit1 := by decide +kernel

end Sys2Proof.Tests
end

section
/-! PROOFS. The cursor and the validity marks (10_state.md rules R23 and R24): what an operation that completes has found and leaves, and which
operations fault, and when. -/

namespace Sys2Proof.Machine

variable {s t : State} {k : Result State} {e : Fault} {i : Instr}

/-! ### Validity marks -/

@[simp] theorem Acc.isValid_valid {w : Nat} (v : BitVec w) : (Acc.valid v).isValid = true := rfl

@[simp] theorem Acc.isValid_unwritten {w : Nat} : (Acc.unwritten : Acc w).isValid = false := rfl

@[simp] theorem AccFile.allValid_mk {w : Nat} (a b c d : Acc w) :
    (AccFile.mk a b c d).allValid = (a.isValid && b.isValid && c.isValid && d.isValid) := rfl

/-! ### What a completed operation inside a command has found and leaves -/

/-- The cursor has moved by the bytes the operation reads, which were there to read (rule R24). -/
def CursorMoved (i : Instr) (s t : State) : Prop :=
  bytesRead i ≤ s.rem ∧ t.pos = s.pos + bytesRead i ∧ t.rem = s.rem - bytesRead i ∧ t.len = s.len

/-- The accumulators the operation writes are valid (rules R23, R34). -/
def WrittenAreValid (i : Instr) (t : State) : Prop :=
  (writesX0 i = true → t.x.r0.isValid = true) ∧ (writesX123 i = true → t.x.allValid = true) ∧
  (writesZ0 i = true → t.z.r0.isValid = true) ∧ (writesZ123 i = true → t.z.allValid = true)

/-- The cases are the shapes an operation has: which tests it makes, and whether it reads no accumulator, the first or all four of a file. -/
theorem exec_next_inside (hi : endsCommand i = false) (h : exec i s = .next t) :
    accumulatorsReady i s = true ∧ CursorMoved i s t ∧ WrittenAreValid i t := by
  cases i
  case update | done => contradiction
  all_goals
    simp only [exec, execProbe, execSbyte, execWInit, execWFold4, execWCollapse, execWFold1, execWHred, execNInit4, execNFold4,
      execNCollapse, execNInit1, execNFold1, execRFold64, execRBarrett, execClmulLL, execClmulHL, execClmulLH, execClmulHH,
      execVclmulLL, execVclmulHL, execVclmulLH, execVclmulHH, needLegalTier_eq_next, needVectorTier_eq_next, needFeature_eq_next,
      needBytes_eq_next, needX0_eq_next, needZ0_eq_next, needX_eq_next, needZ_eq_next, clmulCommand_eq_next, vclmulCommand_eq_next,
      Host.Outcome.next.injEq] at h
    simp only [accumulatorsReady, CursorMoved, bytesRead, WrittenAreValid, writesX0, writesX123, writesZ0, writesZ123]
  case probe => simp [← h]
  case clmulLL | clmulHL | clmulLH | clmulHH | vclmulLL | vclmulHL | vclmulLH | vclmulHH =>
    obtain ⟨-, rfl⟩ := h
    simp
  case sbyte =>
    obtain ⟨-, hrem, -, rfl⟩ := h
    simp [hrem]
  case wInit | nInit4 | nInit1 =>
    obtain ⟨-, -, -, hrem, -, rfl⟩ := h
    simp
    omega
  case wFold4 | nFold4 =>
    obtain ⟨-, -, -, hrem, -, _, _, _, _, hacc, rfl⟩ := h
    simp [hrem, hacc]
  case wFold1 | nFold1 =>
    obtain ⟨-, -, -, hrem, -, _, hacc, rfl⟩ := h
    simp [hrem, hacc]
  case wCollapse | nCollapse =>
    obtain ⟨-, -, -, _, _, _, _, hacc, rfl⟩ := h
    simp [hacc]
  case wHred =>
    obtain ⟨-, -, -, -, _, hacc, rfl⟩ := h
    simp [hacc]
  case rFold64 | rBarrett =>
    obtain ⟨-, -, -, _, hacc, rfl⟩ := h
    simp [hacc]

/-! ### The two ends of a command -/

/-- `UPDATE` with a command presented completes by accepting it. -/
theorem exec_update_next {c : Command} (hc : s.host = some c) (h : exec .update s = .next t) : t = s.accept c := by
  simp only [exec, execUpdate, hc] at h
  split_ifs at h
  exact (Host.Outcome.next.inj h).symm

/-- `DONE` leaves every accumulator unwritten. -/
theorem exec_done_next_cleared (h : exec .done s = .next t) : t.x = .cleared 128 ∧ t.z = .cleared 512 := by
  obtain ⟨-, h⟩ := needLegalTier_eq_next.1 h
  split_ifs at h
  exact Host.Outcome.next.inj h ▸ ⟨rfl, rfl⟩

/-- Only `UPDATE` and `DONE` end a command. -/
theorem endsCommand_eq_false_iff : endsCommand i = false ↔ i ≠ .update ∧ i ≠ .done := by simp [endsCommand]

/-! ### What each test can fault with: nothing of its own, but for the read of an accumulator -/

@[simp] theorem needLegalTier_eq_fault : needLegalTier s k = .fault e ↔ s.tier ≠ 0b11#2 ∧ k = .fault e := by
  unfold needLegalTier; split <;> simp_all

@[simp] theorem needVectorTier_eq_fault :
    needVectorTier s k = .fault e ↔ s.tier ≠ 0b11#2 ∧ s.tier ≠ 0b00#2 ∧ k = .fault e := by
  unfold needVectorTier; rw [needLegalTier_eq_fault]; split <;> simp_all

@[simp] theorem needFeature_eq_fault {f : Feature} :
    needFeature s f k = .fault e ↔ hasFeature s.straps.platform f = true ∧ k = .fault e := by
  unfold needFeature; split <;> simp_all

@[simp] theorem needBytes_eq_fault {need n : Nat} :
    needBytes s need n k = .fault e ↔ need ≤ s.rem ∧ s.pos + n ≤ s.len ∧ k = .fault e := by
  unfold needBytes
  split
  · exact iff_of_false (by simp) (by omega)
  · split
    · exact iff_of_false (by simp) (by omega)
    · simp_all

/-- A read of an accumulator that goes on with a next state faults exactly on an unwritten one (rule R23). -/
theorem needAcc_next_faults {w : Nat} {r : AccName} {a : Acc w} {f : BitVec w → State} :
    (∃ e, needAcc r a (fun v => .next (f v)) = .fault e) ↔ a.isValid = false := by
  cases a <;> simp [needAcc]

@[simp] theorem needX0_next_faults {f : U128 → State} :
    (∃ e, needX0 s (fun v => .next (f v)) = .fault e) ↔ s.x.r0.isValid = false := needAcc_next_faults

@[simp] theorem needZ0_next_faults {f : U512 → State} :
    (∃ e, needZ0 s (fun v => .next (f v)) = .fault e) ↔ s.z.r0.isValid = false := needAcc_next_faults

@[simp] theorem needX_next_faults {f : U128 → U128 → U128 → U128 → State} :
    (∃ e, needX s (fun a b c d => .next (f a b c d)) = .fault e) ↔ s.x.allValid = false := by
  rcases s with ⟨_, ⟨r0, r1, r2, r3⟩⟩
  cases r0 <;> cases r1 <;> cases r2 <;> cases r3 <;> simp [needX, needAcc]

@[simp] theorem needZ_next_faults {f : U512 → U512 → U512 → U512 → State} :
    (∃ e, needZ s (fun a b c d => .next (f a b c d)) = .fault e) ↔ s.z.allValid = false := by
  rcases s with ⟨_, _, ⟨r0, r1, r2, r3⟩⟩
  cases r0 <;> cases r1 <;> cases r2 <;> cases r3 <;> simp [needZ, needAcc]

/-! ### When an operation, and when a step, faults -/

/-- An operation faults exactly when it reads an unwritten accumulator and everything tested before that read is in order (rule R211, log
entry 8). -/
theorem exec_faults_iff (i : Instr) (s : State) : (∃ e, exec i s = .fault e) ↔
    s.tier ≠ 0b11#2 ∧ s.tier ≠ 0b00#2 ∧ (∀ f ∈ featuresNeeded i, hasFeature s.straps.platform f = true) ∧
    bytesRequired i ≤ s.rem ∧ (bytesRead i ≠ 0 → s.pos + bytesRead i ≤ s.len) ∧ accumulatorsReady i s = false := by
  cases i
  case update =>
    simp only [exec, execUpdate, accumulatorsReady]
    repeat' split
    all_goals simp
  case done =>
    simp only [exec, execDone, accumulatorsReady]
    split <;> simp
  case probe => simp [exec, execProbe, accumulatorsReady]
  case sbyte | wInit | nInit4 | nInit1 =>
    simp [exec, execSbyte, execWInit, execNInit4, execNInit1, accumulatorsReady]
  case clmulLL | clmulHL | clmulLH | clmulHH =>
    simp [exec, execClmulLL, execClmulHL, execClmulLH, execClmulHH, clmulCommand, accumulatorsReady]
  case vclmulLL | vclmulHL | vclmulLH | vclmulHH =>
    simp [exec, execVclmulLL, execVclmulHL, execVclmulLH, execVclmulHH, vclmulCommand, accumulatorsReady]
  case wFold4 | wCollapse | wFold1 =>
    simp [exec, execWFold4, execWCollapse, execWFold1, featuresNeeded, bytesRequired, bytesRead, accumulatorsReady]
  case wHred => simp [exec, execWHred, featuresNeeded, bytesRequired, bytesRead, accumulatorsReady, and_assoc]
  case nFold4 | nCollapse | nFold1 | rFold64 | rBarrett =>
    simp [exec, execNFold4, execNCollapse, execNFold1, execRFold64, execRBarrett, featuresNeeded, bytesRequired, bytesRead,
      accumulatorsReady]

theorem runOperation_eq_fault : runOperation s = .fault e ↔ ∃ i, decodeS s.op = .ok i ∧ exec i s = .fault e := by
  simp only [← fetchInstr_eq_ok]; unfold runOperation; split <;> simp_all

/-- The invariant has the accumulators ready that the operation due reads. -/
theorem accumulatorsReady_of_phaseAt (h : phaseAt i s = true) : accumulatorsReady i s = true := by
  cases i
  case wFold4 | wCollapse | wFold1 | wHred | nFold4 | nCollapse | nFold1 | rFold64 | rBarrett =>
    simp_all [phaseAt, accumulatorsReady]
  all_goals rfl

theorem phaseAt_of_phaseOk (h : phaseOk s = true) (hi : decodeS s.op = .ok i) : phaseAt i s = true := by
  simpa [phaseOk, hi] using h

/-- Where the invariant holds no step faults (rule R23: the sequence never reads an unwritten accumulator). -/
theorem step_ne_fault_of_inv (h : Inv s) : step s ≠ .fault e := by
  obtain ⟨-, hport, -, hphase⟩ := h
  rw [step_of_none hport]
  intro hstep
  obtain ⟨i, hi, hexec⟩ := runOperation_eq_fault.1 hstep
  obtain ⟨-, -, -, -, -, hunready⟩ := (exec_faults_iff i s).1 ⟨e, hexec⟩
  have hready := accumulatorsReady_of_phaseAt (phaseAt_of_phaseOk hphase hi)
  simp [hready] at hunready

/-- An operation that has not all it reads is neither end of a command. -/
theorem endsCommand_of_unready (h : accumulatorsReady i s = false) : endsCommand i = false := by
  cases i
  case update | done => cases h
  all_goals rfl

/-! ### The statements -/

/-- Settles O6: `UPDATE` by the state it accepts the command in, every other operation by the cursor's move. -/
theorem cursorAccounting : Obligations.CursorAccounting := by
  unfold Obligations.CursorAccounting
  constructor
  · intro s t c hc h
    rw [exec_update_next hc h]
    exact ⟨rfl, rfl, rfl, Nat.zero_add _⟩
  · intro i s t hu hd h
    obtain ⟨-, ⟨hbytes, hpos, hrem, hlen⟩, -⟩ := exec_next_inside (endsCommand_eq_false_iff.2 ⟨hu, hd⟩) h
    omega

/-- Settles O46: the marks by what a completed operation leaves, the faults by the exact condition under which an operation faults. -/
theorem validityMarks : Obligations.ValidityMarks := by
  unfold Obligations.ValidityMarks
  refine ⟨fun s t c hc h => ?_, fun s t h => exec_done_next_cleared h, fun i s t h hi => ?_, fun i s hunready t h => ?_,
    fun i s hunready htier htier0 hfeat hrem hlen => ?_, fun s hinv r => step_ne_fault_of_inv hinv⟩
  · rw [exec_update_next hc h]
    exact ⟨rfl, rfl⟩
  · obtain ⟨-, -, hvalid⟩ := exec_next_inside hi h
    exact hvalid
  · obtain ⟨hready, -, -⟩ := exec_next_inside (endsCommand_of_unready hunready) h
    simp [hready] at hunready
  · obtain ⟨⟨r⟩, hfault⟩ := (exec_faults_iff i s).2 ⟨htier, htier0, hfeat, hrem, hlen, hunready⟩
    exact ⟨r, hfault⟩

end Sys2Proof.Machine
end

section
/-! PROOFS. Lane assembly (20_memory.md rule R53): what each bit of an assembled value is, and that a part of it is itself a memory read. -/

namespace Sys2Proof.Machine

/-! ### Assembly at any width -/

/-- Bit `k` of an assembled value is bit `k % 8` of the byte at offset `k / 8` from its start. -/
theorem Memory.getLsbD_assemble (w : Nat) (m : Memory) (a n k : Nat) :
    (m.assemble w a n).getLsbD k = (decide (k < w ∧ k < 8 * n) && (m.read (a + k / 8)).getLsbD (k % 8)) := by
  induction n generalizing a k with
  | zero => simp [Memory.assemble]
  | succ n ih =>
    simp only [Memory.assemble, BitVec.getLsbD_or, BitVec.getLsbD_shiftLeft, BitVec.getLsbD_setWidth, ih]
    by_cases hk : k < 8
    · have hlow : k / 8 = 0 ∧ k % 8 = k ∧ k < 8 * (n + 1) := by omega
      simp [hk, hlow]
    · have hhigh : a + 1 + (k - 8) / 8 = a + k / 8 ∧ (k - 8) % 8 = k % 8 ∧ (k < 8 * (n + 1) ↔ k - 8 < 8 * n) := by omega
      have hbyte : (m.read a).getLsbD k = false := BitVec.getLsbD_of_ge _ _ (by omega)
      by_cases hw : k < w
      · have : k - 8 < w := by omega
        simp [hk, hhigh, hbyte, hw, this]
      · simp [hw]

/-- `n` bytes out of an assembled value, from byte `i` on, are the assembly of the `n` bytes from offset `a + i` on. -/
theorem Memory.extractLsb'_assemble {w n total i : Nat} (m : Memory) (a : Nat) (hw : 8 * total ≤ w) (hi : i + n ≤ total) :
    (m.assemble w a total).extractLsb' (8 * i) (8 * n) = m.assemble (8 * n) (a + i) n := by
  ext k hk
  have hin : 8 * i + k < w ∧ 8 * i + k < 8 * total := by omega
  have hoffset : a + (8 * i + k) / 8 = a + i + k / 8 ∧ (8 * i + k) % 8 = k % 8 := by omega
  simp only [← BitVec.getLsbD_eq_getElem, BitVec.getLsbD_extractLsb', Memory.getLsbD_assemble, hin, hoffset, hk, and_self,
    decide_true, Bool.true_and]

/-- The assembly of one byte is the byte. -/
theorem Memory.assemble_one (m : Memory) (a : Nat) : m.assemble 8 a 1 = m.read a := by simp [Memory.assemble]

/-- Byte `i` of an assembled value is the byte at offset `a + i`. -/
theorem Memory.byte_assemble {w total i : Nat} (m : Memory) (a : Nat) (hw : 8 * total ≤ w) (hi : i < total) :
    (m.assemble w a total).extractLsb' (8 * i) 8 = m.read (a + i) :=
  (m.extractLsb'_assemble (n := 1) a hw hi).trans (m.assemble_one _)

/-! ### The three reads -/

variable (s : State) (a : Nat) {i j : Nat}

theorem memRead1_eq_read : memRead1 s a = s.mem.read a := s.mem.assemble_one a

theorem byte_memRead16 (hi : i < 16) : (memRead16 s a).extractLsb' (8 * i) 8 = s.mem.read (a + i) :=
  s.mem.byte_assemble a (by decide) hi

theorem byte_memRead64 (hi : i < 64) : (memRead64 s a).extractLsb' (8 * i) 8 = s.mem.read (a + i) :=
  s.mem.byte_assemble a (by decide) hi

/-- A sub-lane of a wide lane is the narrow lane at its place. -/
theorem lane_memRead64 (hj : j < 4) : lane (memRead64 s a) j = memRead16 s (a + 16 * j) := by
  have hpart := s.mem.extractLsb'_assemble (w := 512) (n := 16) (total := 64) (i := 16 * j) a (by decide) (by omega)
  rw [← Nat.mul_assoc] at hpart
  exact hpart

/-! ### The statement -/

/-- Settles O9: every clause is a part of an assembled value, which is the assembly of the bytes at that place. -/
theorem memReadIsLittleEndian : Obligations.MemReadIsLittleEndian := by
  unfold Obligations.MemReadIsLittleEndian
  intro s a
  refine ⟨memRead1_eq_read s a, fun i hi => byte_memRead16 s a hi, fun i hi => byte_memRead64 s a hi,
    fun j hj => lane_memRead64 s a hj, fun i hi => ?_⟩
  rw [memRead1_eq_read]
  exact byte_memRead16 s a hi

end Sys2Proof.Machine
end

section
/-! PROOFS. The opcode map (30_encoding.md rules R70 to R73): decoding undoes encoding, and only the word of an operation decodes to it. -/

namespace Sys2Proof.Machine

variable {w : U8} {i : Instr}

/-! ### A word is its fields -/

/-- Rule R71: a word of class 0 is the format-S word of its code. -/
theorem formatS_fieldOpc : ∀ w : U8, fieldClass w = 0b000#3 → formatS (fieldOpc w) = w := by decide

/-- Rule R72: a word of class 1 whose `zero` is 0 is the format-M word of its three bits. -/
theorem formatM_fields : ∀ w : U8, fieldClass w = 0b001#3 → fieldZero w = 0b00#2 →
    formatM (fieldWide w) (fieldB w) (fieldA w) = w := by decide

/-! ### Decoding inverts encoding -/

theorem decodeWord_encodeWord (i : Instr) : decodeWord (encodeWord i) = .ok i := by
  cases i <;> rfl

/-- A code decodes only to the operation whose word carries it. -/
theorem encodeWord_of_decodeS {opc : BitVec 5} (h : decodeS opc = .ok i) : encodeWord i = formatS opc := by
  have hopc : opc = BitVec.ofNat 5 opc.toNat := by simp
  rw [hopc]
  unfold decodeS at h
  split at h <;> cases h
  all_goals
    next hcode =>
      rw [hcode]
      rfl

theorem encodeWord_decodeM (wide b a : Bool) : encodeWord (decodeM wide b a) = formatM wide b a := by
  cases wide <;> cases b <;> cases a <;> rfl

/-- Only the word of an operation decodes to it: by the word's class (rule R70). -/
theorem encodeWord_of_decodeWord (h : decodeWord w = .ok i) : encodeWord i = w := by
  unfold decodeWord at h
  split at h
  next hclass => rw [encodeWord_of_decodeS h, formatS_fieldOpc w (BitVec.eq_of_toNat_eq hclass)]
  next hclass =>
    split at h
    next hzero =>
      cases h
      rw [encodeWord_decodeM, formatM_fields w (BitVec.eq_of_toNat_eq hclass) hzero]
    next => cases h
  next => cases h

theorem decodeWord_eq_ok : decodeWord w = .ok i ↔ w = encodeWord i :=
  ⟨fun h => (encodeWord_of_decodeWord h).symm, fun h => h ▸ decodeWord_encodeWord i⟩

/-- Format S fills the words below 0x20 and format M those from there on, which is their class (rules R70 to R72). -/
theorem format_eq_ite (i : Instr) : i.format = if (encodeWord i).toNat < 0x20 then .s else .m := by
  cases i <;> rfl

/-! ### The statement -/

/-- Settles O1: only its own word decodes to an operation, and the map lists every operation once, with that word. -/
theorem opcodeMapIsComplete : Obligations.OpcodeMapIsComplete := by
  unfold Obligations.OpcodeMapIsComplete
  intro w i
  rw [decodeWord_eq_ok]
  constructor
  · rw [← BitVec.toNat_inj]
    cases i <;> simp [encodeWord, formatS, formatM]
  · rintro rfl
    exact format_eq_ite i

end Sys2Proof.Machine
end

section
/-! PROOFS. The scalar engine (40_scalar.md rules R90 and R92): the table is linear because every single-bit step is, and a stretch of `SBYTE`
operations is the scalar function over the bytes it consumes. -/

namespace Sys2Proof.Machine

/-! ### The table (rule R90) -/

/-- What a single-bit step XORs in is chosen by bit 0 alone. -/
theorem bitStep_eq_xor_ite (r : U32) : bitStep r = (r >>> 1) ^^^ (if r.getLsbD 0 = true then polyReflected else 0) := by
  unfold bitStep
  split
  · rfl
  · exact BitVec.xor_zero.symm

/-- A word XORed in under each of two bits is XORed in under their exclusive or. -/
theorem ite_bne_eq_xor (p q : Bool) (v : U32) :
    (if (p ^^ q) = true then v else 0) = (if p = true then v else 0) ^^^ (if q = true then v else 0) := by
  cases p <;> cases q <;> simp

theorem bitStep_xor (a b : U32) : bitStep (a ^^^ b) = bitStep a ^^^ bitStep b := by
  simp only [bitStep_eq_xor_ite, BitVec.ushiftRight_xor_distrib, BitVec.getLsbD_xor, ite_bne_eq_xor]
  ac_rfl

theorem bitSteps_xor (n : Nat) (a b : U32) : bitSteps n (a ^^^ b) = bitSteps n a ^^^ bitSteps n b := by
  induction n generalizing a b with
  | zero => rfl
  | succ n ih => simp only [bitSteps, bitStep_xor, ih]

theorem bitSteps_eq_iterate (n : Nat) (r : U32) : bitSteps n r = bitStep^[n] r := by
  induction n generalizing r with
  | zero => rfl
  | succ n ih => exact ih (bitStep r)

theorem table_xor (i j : U8) : table (i ^^^ j) = table i ^^^ table j := by
  simp only [table, BitVec.setWidth_xor, bitSteps_xor]

/-- From a zero CRC a byte selects its own entry, and nothing is shifted in beside it. -/
theorem crcStep_zero (b : U8) : crcStep 0 b = table b := by
  simp [crcStep]

/-- Settles O16: the construction by iterating the single-bit step, the linearity by that of the step, the rest by the data step from zero
and by evaluation. -/
theorem tableIsTheStandardOne : Obligations.TableIsTheStandardOne := by
  unfold Obligations.TableIsTheStandardOne
  exact ⟨fun i => bitSteps_eq_iterate 8 _, fun i => (crcStep_zero i).symm, table_xor, by decide⟩

/-! ### A stretch of `SBYTE` operations (rule R92) -/

variable {s t : State}

theorem afterScalar_of_pos {r : Nat} (h : 0 < r) : afterScalar r = .sbyte := if_pos h

/-- The state after the scalar engine has consumed `n` more bytes: with `n = 1` what one `SBYTE` leaves. -/
def State.consumeBytes (s : State) (n : Nat) : State :=
  ((s.setCrc (scalar s.crc (s.mem.bytes s.pos n))).advance n).goto (afterScalar (s.rem - n))

@[simp] theorem State.consumeBytes_crc (s : State) (n : Nat) :
    (s.consumeBytes n).crc = scalar s.crc (s.mem.bytes s.pos n) := rfl
@[simp] theorem State.consumeBytes_pos (s : State) (n : Nat) : (s.consumeBytes n).pos = s.pos + n := rfl
@[simp] theorem State.consumeBytes_rem (s : State) (n : Nat) : (s.consumeBytes n).rem = s.rem - n := rfl
@[simp] theorem State.consumeBytes_len (s : State) (n : Nat) : (s.consumeBytes n).len = s.len := rfl
@[simp] theorem State.consumeBytes_op (s : State) (n : Nat) : (s.consumeBytes n).op = (afterScalar (s.rem - n)).code := rfl

/-- Before any byte is consumed `OP` is the scalar engine's choice already. -/
theorem State.consumeBytes_zero (hop : s.op = (afterScalar s.rem).code) : s.consumeBytes 0 = s := by
  show { s with op := (afterScalar s.rem).code } = s
  rw [← hop]

/-- Consuming one byte and then `n` is consuming `n + 1`. -/
theorem State.consumeBytes_one_then (s : State) (n : Nat) : (s.consumeBytes 1).consumeBytes n = s.consumeBytes (n + 1) := by
  have hpos : s.pos + 1 + n = s.pos + (n + 1) := by omega
  have hrem : s.rem - 1 - n = s.rem - (n + 1) := by omega
  simp only [State.consumeBytes, State.setCrc, State.advance, State.goto, Memory.bytes, scalar, hpos, hrem]

/-- `SBYTE` with a byte left consumes it (rule R91). -/
theorem exec_sbyte (htier : s.tier ≠ 0b11#2) (hrem : 1 ≤ s.rem) (hlen : s.pos + 1 ≤ s.len) :
    exec .sbyte s = .next (s.consumeBytes 1) := by
  show execSbyte s = _
  rw [execSbyte, needLegalTier_of htier, needBytes_of hrem hlen, memRead1_eq_read]
  rfl

/-- Where `OP` names `SBYTE` and the port is empty, a step consumes one byte. -/
theorem step_sbyte (hop : s.op = Instr.code .sbyte) (hport : s.mul.word = none) (htier : s.tier ≠ 0b11#2)
    (hrem : 1 ≤ s.rem) (hlen : s.pos + 1 ≤ s.len) : step s = .next (s.consumeBytes 1) := by
  rw [step_of_none hport, runOperation_eq_next]
  exact ⟨.sbyte, hop ▸ decodeS_code rfl, exec_sbyte htier hrem hlen⟩

/-- A run whose first step goes on is the rest of it from the next state. -/
theorem run_succ_of_step (n : Nat) (h : step s = .next t) : core.run (n + 1) s = core.run n t := by
  have hcore : core.step s = .next t := h
  simp only [Host.Core.run, hcore]

/-- From a state where `OP` is what the scalar engine chooses next, `n` steps consume `n` bytes. The choice is made again after every byte, so
the hypotheses hold again there. -/
theorem run_consumeBytes (n : Nat) (hop : s.op = (afterScalar s.rem).code) (hport : s.mul.word = none) (htier : s.tier ≠ 0b11#2)
    (hrem : n ≤ s.rem) (hlen : s.pos + s.rem = s.len) : core.run n s = .next (s.consumeBytes n) := by
  induction n generalizing s with
  | zero => rw [State.consumeBytes_zero hop]; rfl
  | succ n ih =>
    have hsbyte : s.op = Instr.code .sbyte := by rw [hop, afterScalar_of_pos (by omega)]
    have hrem' : n ≤ (s.consumeBytes 1).rem := by rw [State.consumeBytes_rem]; omega
    have hlen' : (s.consumeBytes 1).pos + (s.consumeBytes 1).rem = (s.consumeBytes 1).len := by
      rw [State.consumeBytes_pos, State.consumeBytes_rem, State.consumeBytes_len]; omega
    calc core.run (n + 1) s
        = core.run n (s.consumeBytes 1) :=
          run_succ_of_step n (step_sbyte hsbyte hport htier (by omega) (by omega))
      _ = .next ((s.consumeBytes 1).consumeBytes n) := ih (s.consumeBytes_op 1) hport htier hrem' hlen'
      _ = .next (s.consumeBytes (n + 1)) := by rw [s.consumeBytes_one_then n]

/-- Settles O18: with no step to run the state stays; otherwise bytes are left, so `SBYTE` is what the scalar engine chooses. -/
theorem sbyteRunIsScalar : Obligations.SbyteRunIsScalar := by
  unfold Obligations.SbyteRunIsScalar
  refine ⟨fun c => rfl, fun c b rest => rfl, fun n s hop hport htier hrem hlen => ?_⟩
  cases n with
  | zero => exact ⟨s, rfl, rfl, rfl⟩
  | succ n =>
    have hchoice : s.op = (afterScalar s.rem).code := by
      rw [afterScalar_of_pos (by omega)]
      exact hop
    exact ⟨s.consumeBytes (n + 1), run_consumeBytes (n + 1) hchoice hport htier hrem hlen, s.consumeBytes_crc _, s.consumeBytes_pos _⟩

end Sys2Proof.Machine
end

section
/-! PROOFS. Tier selection (41_probe.md rules R100 to R104): what the selected tier says of `REM`, what `PROBE` leaves, and what the
operations that follow it may rely on. -/

namespace Sys2Proof.Machine

open Config (Straps MinVec)

variable {s t : State} {i : Instr}

/-! ### What the selected tier says of the capability word and of `REM` (rule R100) -/

section
variable {p : Straps} {h : U32} {r : Nat}

/-- Line (1): big-endian byte order rules out every vector tier. -/
theorem selectTier_of_be (hbe : capBe h = true) : selectTier p h r = tierNone := if_pos hbe

/-- Line (3): below `MIN_VEC_BYTES` no vector tier is selected. -/
theorem selectTier_of_lt_minVecBytes (hr : r < minVecBytes p.minVec) : selectTier p h r = tierNone := by
  simp [selectTier, hr]

/-- Line (4): below `WIDE_MIN_BYTES` the wide tier is not selected. -/
theorem selectTier_ne_wide_of_lt (hr : r < wideMinBytes p.wideMin) : selectTier p h r ≠ tierWide := by
  have hline4 : ¬(capWclmul h = true ∧ capV512 h = true ∧ wideMinBytes p.wideMin ≤ r) := by omega
  rw [selectTier, if_neg hline4]
  split_ifs <;> decide

theorem minVecBytes_le_of_selectTier_ne_none (hne : selectTier p h r ≠ tierNone) : minVecBytes p.minVec ≤ r :=
  Nat.le_of_not_lt fun hr => hne (selectTier_of_lt_minVecBytes hr)

theorem wideMinBytes_le_of_selectTier_eq_wide (hwide : selectTier p h r = tierWide) : wideMinBytes p.wideMin ≤ r :=
  Nat.le_of_not_lt fun hr => selectTier_ne_wide_of_lt hr hwide

end

/-- Either value of the strap holds a narrow lane. -/
theorem sixteen_le_minVecBytes (m : MinVec) : 16 ≤ minVecBytes m := by
  cases m <;> decide

/-! ### The dispatch (rule R101) -/

theorem afterProbe_none (r : Nat) : afterProbe tierNone r = afterScalar r := rfl

theorem afterProbe_wide (r : Nat) : afterProbe tierWide r = .wInit := rfl

/-- With no vector tier the dispatch is to the scalar path. -/
theorem tier_ne_none_of_afterProbe_eq_nInit1 {tier : BitVec 2} {r : Nat} (h : afterProbe tier r = .nInit1) : tier ≠ tierNone := by
  rintro rfl
  rw [afterProbe_none, afterScalar] at h
  split at h <;> cases h

theorem narrowBulkMin_le_of_afterProbe_eq_nInit4 {tier : BitVec 2} {r : Nat} (h : afterProbe tier r = .nInit4) :
    narrowBulkMin ≤ r := by
  unfold afterProbe at h
  split_ifs at h
  assumption

/-- What `PROBE` leaves. -/
def State.probed (s : State) : State :=
  (s.setTier (selectTier s.straps s.hwcap s.rem)).goto (afterProbe (selectTier s.straps s.hwcap s.rem) s.rem)

@[simp] theorem State.probed_tier (s : State) : s.probed.tier = selectTier s.straps s.hwcap s.rem := rfl
@[simp] theorem State.probed_op (s : State) :
    s.probed.op = (afterProbe (selectTier s.straps s.hwcap s.rem) s.rem).code := rfl
@[simp] theorem State.probed_rem (s : State) : s.probed.rem = s.rem := rfl

theorem exec_probe (s : State) : exec .probe s = .next s.probed := rfl

/-- The operation `OP` names after `PROBE` is the one dispatched to. -/
theorem afterProbe_of_probed_op (hi : i.format = .s) (h : s.probed.op = i.code) :
    afterProbe (selectTier s.straps s.hwcap s.rem) s.rem = i :=
  code_injective (afterProbe_format _ _) hi h

/-! ### The two block initialisations (rules R131 and R151) -/

theorem exec_wInit_next (h : exec .wInit s = .next t) :
    t.op = (afterWideBlock (s.rem - 256)).code ∧ t.rem = s.rem - 256 := by
  simp only [exec, execWInit, needVectorTier_eq_next, needFeature_eq_next, needBytes_eq_next, Host.Outcome.next.injEq] at h
  obtain ⟨-, -, -, -, -, rfl⟩ := h
  exact ⟨rfl, rfl⟩

theorem exec_nInit4_next (h : exec .nInit4 s = .next t) :
    128 ≤ s.rem ∧ t.op = (afterNarrowBlock (s.rem - 64)).code ∧ t.rem = s.rem - 64 := by
  simp only [exec, execNInit4, needVectorTier_eq_next, needFeature_eq_next, needBytes_eq_next, Host.Outcome.next.injEq] at h
  obtain ⟨-, -, -, hrem, -, rfl⟩ := h
  exact ⟨hrem, rfl, rfl⟩

theorem afterWideBlock_of_le {r : Nat} (h : 256 ≤ r) : afterWideBlock r = .wFold4 := if_pos h

theorem afterNarrowBlock_of_le {r : Nat} (h : 64 ≤ r) : afterNarrowBlock r = .nFold4 := if_pos h

/-! ### The invariant's tier -/

theorem WideOk.tier_ne_none (h : WideOk s) : s.tier ≠ tierNone := by
  obtain ⟨htier, -⟩ := h
  rw [htier]; decide

theorem NarrowOk.tier_ne_none (h : NarrowOk s) : s.tier ≠ tierNone := by
  obtain ⟨htier, -⟩ := h
  rw [htier]; decide

theorem ReduceOk.tier_ne_none (h : ReduceOk s) : s.tier ≠ tierNone := by
  obtain ⟨hwide, -⟩ | ⟨hnarrow, -⟩ := h
  · exact hwide.tier_ne_none
  · exact hnarrow.tier_ne_none

/-- Where the invariant has a vector operation due, a vector tier is selected. -/
theorem tier_ne_none_of_phaseAt (h : phaseAt i s = true) (hv : isVector i = true) : s.tier ≠ tierNone := by
  cases i
  case wInit | wFold4 | wCollapse | wFold1 | wHred =>
    obtain ⟨-, hwide, -⟩ := of_decide_eq_true h
    exact WideOk.tier_ne_none hwide
  case nInit4 | nFold4 | nCollapse | nInit1 | nFold1 =>
    obtain ⟨-, hnarrow, -⟩ := of_decide_eq_true h
    exact NarrowOk.tier_ne_none hnarrow
  case rFold64 | rBarrett =>
    obtain ⟨-, hreduce, -⟩ := of_decide_eq_true h
    exact ReduceOk.tier_ne_none hreduce
  all_goals contradiction

/-! ### The statements -/

/-- Settles O13: the state `PROBE` leaves is written out, and its two new fields are functions of `HWCAP`, `REM` and the straps. -/
theorem probeIsPure : Obligations.ProbeIsPure := by
  unfold Obligations.ProbeIsPure
  intro s s' hcap hrem hstraps
  refine ⟨s.probed, s'.probed, exec_probe s, exec_probe s', ?_, ?_, rfl⟩
  · simp only [State.probed_tier, hcap, hrem, hstraps]
  · simp only [State.probed_op, hcap, hrem, hstraps]

/-- The guarantees at `PROBE` itself (rule R104): each from the line of R100 or the branch of R101 that tests `REM`. -/
theorem probed_guarantees (s : State) :
    (s.probed.tier = tierWide → s.straps.wideMin = .bytes512 → s.probed.op = Instr.code .wInit ∧ 512 ≤ s.rem) ∧
    (s.probed.tier ≠ tierNone → minVecBytes s.straps.minVec ≤ s.rem) ∧
    (s.probed.op = Instr.code .nInit1 → 16 ≤ s.rem) ∧ (s.probed.op = Instr.code .nInit4 → 128 ≤ s.rem) := by
  refine ⟨fun hwide hstrap => ⟨?_, ?_⟩, minVecBytes_le_of_selectTier_ne_none, fun hop => ?_, fun hop => ?_⟩
  · rw [State.probed_tier] at hwide
    rw [State.probed_op, hwide, afterProbe_wide]
  · have hrem := wideMinBytes_le_of_selectTier_eq_wide hwide
    rwa [hstrap] at hrem
  · have hne := tier_ne_none_of_afterProbe_eq_nInit1 (afterProbe_of_probed_op rfl hop)
    exact (sixteen_le_minVecBytes _).trans (minVecBytes_le_of_selectTier_ne_none hne)
  · exact narrowBulkMin_le_of_afterProbe_eq_nInit4 (afterProbe_of_probed_op rfl hop)

/-- Settles O14: the state `PROBE` leaves, the two initialisations by what they find and leave, the last clause by the invariant's phase. -/
theorem tierGuarantees : Obligations.TierGuarantees := by
  unfold Obligations.TierGuarantees
  refine ⟨fun s t h => ?_, fun s t h hrem => ?_, fun s t h => ?_, fun s i hinv hi hv => ?_⟩
  · obtain rfl : s.probed = t := Host.Outcome.next.inj h
    obtain ⟨hwide, hvector, hshort, hbulk⟩ := probed_guarantees s
    exact ⟨hwide, fun hnarrow => ⟨sixteen_le_minVecBytes _, hvector (by rw [hnarrow]; decide)⟩, hshort, hbulk⟩
  · obtain ⟨hop, htrem⟩ := exec_wInit_next h
    rw [hop, afterWideBlock_of_le (by omega)]
    exact ⟨rfl, by omega⟩
  · obtain ⟨hrem, hop, htrem⟩ := exec_nInit4_next h
    rw [hop, afterNarrowBlock_of_le (by omega)]
    exact ⟨hrem, rfl, by omega⟩
  · obtain ⟨-, -, -, hphase⟩ := hinv
    rw [fetchWord, decodeWord_formatS] at hi
    exact tier_ne_none_of_phaseAt (phaseAt_of_phaseOk hphase hi) hv

end Sys2Proof.Machine
end

section
/-! PROOFS. The scalar path (40_scalar.md rule R94, 41_probe.md rule R103): a stretch of completed operations as one relation, and the
command whose tier is `None` as the stretch `UPDATE`, `PROBE`, one `SBYTE` for each byte, `DONE`. -/

namespace Sys2Proof.Machine

variable {s t u : State} {i : Instr} {is js : List Instr}

/-! ### Stretches of completed operations -/

/-- A step that completes the operation `OP` names is that operation at the head of the trace. -/
theorem trace_succ_of_step (n : Nat) (hi : decodeS s.op = .ok i) (hstep : step s = .next t) :
    trace (n + 1) s = i :: trace n t := by
  simp only [trace, fetchInstr_eq_ok.2 hi, hstep]

/-- With an empty port a step is the operation whose code `OP` holds. -/
theorem step_of_code (hop : s.op = i.code) (hi : i.format = .s) (hport : s.mul.word = none) (hexec : exec i s = .next t) :
    step s = .next t := by
  rw [step_of_none hport, runOperation_eq_next]
  exact ⟨i, hop ▸ decodeS_code hi, hexec⟩

/-- From `s` the machine completes the listed sequencer operations, one a step, and is then in `t`. -/
inductive Completes : List Instr → State → State → Prop where
  | nil (s : State) : Completes [] s s
  | cons {i : Instr} {is : List Instr} {s t u : State} (hop : s.op = i.code) (hi : i.format = .s)
      (hstep : step s = .next t) (h : Completes is t u) : Completes (i :: is) s u

theorem Completes.single (hop : s.op = i.code) (hi : i.format = .s) (hstep : step s = .next t) : Completes [i] s t :=
  .cons hop hi hstep (.nil t)

theorem Completes.append (h : Completes is s t) (h' : Completes js t u) : Completes (is ++ js) s u := by
  induction h with
  | nil s => exact h'
  | cons hop hi hstep _ ih => exact .cons hop hi hstep (ih h')

theorem Completes.run_eq (h : Completes is s t) : core.run is.length s = .next t := by
  induction h with
  | nil s => rfl
  | cons hop hi hstep _ ih => rw [List.length_cons, run_succ_of_step _ hstep, ih]

theorem Completes.trace_eq (h : Completes is s t) : trace is.length s = is := by
  induction h with
  | nil s => rfl
  | cons hop hi hstep _ ih => rw [List.length_cons, trace_succ_of_step _ (hop ▸ decodeS_code hi) hstep, ih]

/-! ### The stretch of `SBYTE` operations -/

/-- One step more than a run that goes on is a step from where that run ends. -/
theorem run_succ_of_run {n : Nat} (h : core.run n s = .next t) : core.run (n + 1) s = step t := by
  induction n generalizing s with
  | zero =>
    obtain rfl : s = t := Host.Outcome.next.inj h
    change core.run 1 s = core.step s
    simp only [Host.Core.run]
    cases core.step s <;> rfl
  | succ n ih =>
    simp only [Host.Core.run] at h
    split at h
    next u hstep => rw [run_succ_of_step (n + 1) hstep, ih h]
    all_goals cases h

/-- Every step of the run that consumes `n` bytes is an `SBYTE`. -/
theorem completes_sbytes (n : Nat) (hop : s.op = (afterScalar s.rem).code) (hport : s.mul.word = none) (htier : s.tier ≠ 0b11#2)
    (hrem : n ≤ s.rem) (hlen : s.pos + s.rem = s.len) : Completes (List.replicate n .sbyte) s (s.consumeBytes n) := by
  induction n with
  | zero =>
    rw [State.consumeBytes_zero hop]
    exact .nil s
  | succ n ih =>
    have hsbyte : (s.consumeBytes n).op = Instr.code .sbyte := by
      rw [State.consumeBytes_op, afterScalar_of_pos (by omega)]
    have hstep : step (s.consumeBytes n) = .next (s.consumeBytes (n + 1)) := by
      rw [← run_succ_of_run (run_consumeBytes n hop hport htier (by omega) hlen)]
      exact run_consumeBytes (n + 1) hop hport htier hrem hlen
    rw [List.replicate_succ']
    exact (ih (by omega)).append (.single hsbyte rfl hstep)

/-! ### The two ends of a command -/

/-- `UPDATE` in `IDLE` accepts a command that fits (rule R191). -/
theorem exec_update_of_fits {c : Command} (hop : s.op = Instr.code .update) (hhost : s.host = some c)
    (hfits : c.wf s.straps.lenBits = true) : exec .update s = .next (s.accept c) := by
  simp only [exec, execUpdate, hop, hhost, hfits, if_true]

/-- What `DONE` leaves where it completes (rule R192). -/
def State.delivered (s : State) : State :=
  ({ s.forgetCommand.invalidate with crcOut := s.crc } : State).goto .update

@[simp] theorem State.delivered_op (s : State) : s.delivered.op = Instr.code .update := rfl
@[simp] theorem State.delivered_crcOut (s : State) : s.delivered.crcOut = s.crc := rfl

theorem exec_done_of_rem_zero (htier : s.tier ≠ 0b11#2) (hrem : s.rem = 0) : exec .done s = .next s.delivered := by
  show execDone s = _
  rw [execDone, needLegalTier_of htier, if_pos hrem]
  rfl

/-! ### The whole command -/

/-- The state before `DONE` in a command that takes the scalar path. -/
def State.scalarEnd (s : State) (c : Command) : State := (s.accept c).probed.consumeBytes c.len

theorem State.scalarEnd_crc (s : State) (c : Command) : (s.scalarEnd c).crc = scalar c.crcIn (s.mem.bytes 0 c.len) := rfl

theorem State.scalarEnd_rem (s : State) (c : Command) : (s.scalarEnd c).rem = 0 := Nat.sub_self c.len

theorem operationSequence_none (n : Nat) :
    operationSequence tierNone n = [.update, .probe] ++ List.replicate n .sbyte ++ [.done] := if_pos rfl

theorem operationCount_none (n : Nat) : operationCount tierNone n = n + 3 := by
  simp [operationCount, operationSequence_none]

/-- With tier `None` a command completes through the scalar path, whatever the platform has. -/
theorem completes_scalarCommand {c : Command} (hop : s.op = Instr.code .update) (hport : s.mul.word = none)
    (hhost : s.host = some c) (hfits : c.wf s.straps.lenBits = true) (hnone : commandTier s c = tierNone) :
    Completes (operationSequence tierNone c.len) s (s.scalarEnd c).delivered := by
  have htier : (s.accept c).probed.tier = tierNone := hnone
  have hlegal : (s.accept c).probed.tier ≠ 0b11#2 := by rw [htier]; decide
  have hdispatch : (s.accept c).probed.op = (afterScalar c.len).code :=
    congrArg (fun tier => (afterProbe tier c.len).code) hnone
  have hdone : (s.scalarEnd c).op = Instr.code .done :=
    congrArg (fun r => (afterScalar r).code) (Nat.sub_self c.len)
  have hupdate : Completes [.update] s (s.accept c) :=
    .single hop rfl (step_of_code hop rfl hport (exec_update_of_fits hop hhost hfits))
  have hprobe : Completes [.probe] (s.accept c) (s.accept c).probed :=
    .single rfl rfl (step_of_code rfl rfl hport (exec_probe _))
  have hsbytes : Completes (List.replicate c.len .sbyte) (s.accept c).probed (s.scalarEnd c) :=
    completes_sbytes c.len hdispatch hport hlegal (Nat.le_refl c.len) (Nat.zero_add c.len)
  have hend : Completes [.done] (s.scalarEnd c) (s.scalarEnd c).delivered :=
    .single hdone rfl (step_of_code hdone rfl hport (exec_done_of_rem_zero hlegal (s.scalarEnd_rem c)))
  rw [operationSequence_none]
  exact ((hupdate.append hprobe).append hsbytes).append hend

/-- Settles O15: line (1) of R100, and the scalar command's completed operations, which are its run and its trace. -/
theorem scalarPathDeliversScalarCrc : Obligations.ScalarPathDeliversScalarCrc := by
  unfold Obligations.ScalarPathDeliversScalarCrc
  refine ⟨fun s c hbe => selectTier_of_be hbe, fun s c hop hport hhost hfits hnone => ?_⟩
  have hcompletes := completes_scalarCommand hop hport hhost hfits hnone
  refine ⟨(s.scalarEnd c).delivered, ?_, rfl, s.scalarEnd_crc c, ?_⟩
  · rw [CommandEndsIn, hnone]
    exact hcompletes.run_eq
  · rw [← operationCount_none, ← operationSequence_none]
    exact hcompletes.trace_eq

end Sys2Proof.Machine
end

section
/-! PROOFS. The carry-less product (42_clmul.md rules R110 and R111): a word read as a polynomial over GF(2), the product as the product of
polynomials, and the laws of `clmul64` as laws of polynomials. -/

namespace Sys2Proof.Machine

open Polynomial

/-! ### The product by its bits and by its shifted copies -/

theorem getLsbD_ite_zero {w : Nat} (p : Bool) (v : BitVec w) (k : Nat) :
    (if p = true then v else 0).getLsbD k = (p && v.getLsbD k) := by
  cases p <;> simp

/-- Bit `k` of a partial product, the exclusive or of `a[k - i] & b[i]`. -/
theorem getLsbD_clmulUpTo (a b : U64) (n : Nat) {k : Nat} (hk : k < 128) :
    (clmulUpTo a b n).getLsbD k =
      ((List.range n).map fun i => decide (i ≤ k) && (a.getLsbD (k - i) && b.getLsbD i)).foldl xor false := by
  induction n with
  | zero => simp [clmulUpTo]
  | succ n ih =>
    have hcopy : (a.setWidth 128 <<< n).getLsbD k = (decide (n ≤ k) && a.getLsbD (k - n)) := by
      by_cases hn : n ≤ k
      · simp [hk, hn, Nat.not_lt.mpr hn]
      · simp [hn, Nat.lt_of_not_le hn]
    rw [clmulUpTo, BitVec.getLsbD_xor, ih, getLsbD_ite_zero, hcopy, List.range_succ, List.map_append, List.foldl_append,
      Bool.and_left_comm, Bool.and_comm (b.getLsbD n)]
    rfl

/-- A partial product, the exclusive or of the copies of `a` shifted by the bits of `b`. -/
theorem clmulUpTo_eq_foldl_copies (a b : U64) (n : Nat) :
    clmulUpTo a b n =
      ((List.range n).map fun i => if b.getLsbD i = true then a.setWidth 128 <<< i else 0#128).foldl (· ^^^ ·) 0#128 := by
  induction n with
  | zero => rfl
  | succ n ih => rw [clmulUpTo, ih, List.range_succ, List.map_append, List.foldl_append]; rfl

/-! ### A word read as a polynomial -/

section
variable {w : Nat}

/-- The polynomial over GF(2) whose coefficient of `X ^ i` is bit `i` of the word. -/
noncomputable def bitPoly (v : BitVec w) : (ZMod 2)[X] :=
  ∑ i ∈ Finset.range w, if v.getLsbD i = true then X ^ i else 0

theorem coeff_bitPoly (v : BitVec w) (k : Nat) : (bitPoly v).coeff k = if v.getLsbD k = true then 1 else 0 := by
  have hterm (i : Nat) : (if v.getLsbD i = true then (X : (ZMod 2)[X]) ^ i else 0).coeff k =
      if k = i then (if v.getLsbD k = true then 1 else 0) else 0 := by
    by_cases hi : k = i
    · subst hi; split <;> simp
    · split <;> simp [coeff_X_pow, hi]
  rw [bitPoly, finsetSum_coeff, Finset.sum_congr rfl fun i _ => hterm i, Finset.sum_ite_eq]
  by_cases hk : k < w
  · simp [hk]
  · simp [hk, BitVec.getLsbD_of_ge v k (Nat.le_of_not_lt hk)]

theorem coeff_bitPoly_eq_zero (v : BitVec w) (k : Nat) : (bitPoly v).coeff k = 0 ↔ v.getLsbD k = false := by
  rw [coeff_bitPoly]
  cases v.getLsbD k <;> simp

theorem bitPoly_injective : Function.Injective (bitPoly (w := w)) := by
  intro u v h
  refine BitVec.eq_of_getLsbD_eq fun k _ => ?_
  have hzero : u.getLsbD k = false ↔ v.getLsbD k = false := by
    rw [← coeff_bitPoly_eq_zero, ← coeff_bitPoly_eq_zero, h]
  rw [Bool.eq_iff_iff]
  simpa using not_congr hzero

theorem bitPoly_zero : bitPoly (0 : BitVec w) = 0 := by simp [bitPoly]

/-- Addition of polynomials over GF(2) is the exclusive or. -/
theorem bitPoly_xor (u v : BitVec w) : bitPoly (u ^^^ v) = bitPoly u + bitPoly v := by
  ext k
  rw [coeff_add, coeff_bitPoly, coeff_bitPoly, coeff_bitPoly, BitVec.getLsbD_xor]
  cases u.getLsbD k <;> cases v.getLsbD k <;> decide

/-- A left shift that loses no bit multiplies by a power of `X`. -/
theorem bitPoly_setWidth_shiftLeft {w' n : Nat} (v : BitVec w) (h : ∀ k, w' ≤ k + n → v.getLsbD k = false) :
    bitPoly (v.setWidth w' <<< n) = bitPoly v * X ^ n := by
  ext k
  rw [coeff_mul_X_pow', coeff_bitPoly, coeff_bitPoly, BitVec.getLsbD_shiftLeft, BitVec.getLsbD_setWidth]
  by_cases hn : n ≤ k
  · by_cases hk : k < w'
    · have hrange : k - n < w' := by omega
      simp [hn, hk, hrange, Nat.not_lt.mpr hn]
    · simp [hn, hk, h (k - n) (by omega)]
  · simp [hn, Nat.lt_of_not_le hn]

theorem bitPoly_twoPow {k : Nat} (hk : k < w) : bitPoly (BitVec.twoPow w k) = X ^ k := by
  ext j
  simp [coeff_bitPoly, coeff_X_pow, hk, eq_comm]

/-- A word below `2 ^ (n + 1)` is a polynomial of degree at most `n`. -/
theorem natDegree_bitPoly_le_iff (v : BitVec w) (n : Nat) : (bitPoly v).natDegree ≤ n ↔ v.toNat < 2 ^ (n + 1) := by
  simp only [natDegree_le_iff_coeff_eq_zero, coeff_bitPoly_eq_zero]
  constructor
  · intro h
    exact Nat.lt_pow_two_of_testBit _ fun k hk => h k hk
  · intro h k hk
    exact Nat.testBit_lt_two_pow (h.trans_le (Nat.pow_le_pow_right (by decide) hk))

/-- Reversing a word reverses the order of the coefficients. -/
theorem bitPoly_reverse {n : Nat} (v : BitVec (n + 1)) : bitPoly v.reverse = (bitPoly v).reflect n := by
  ext k
  rw [coeff_reflect, coeff_bitPoly, coeff_bitPoly, BitVec.getLsbD_reverse, BitVec.getMsbD]
  by_cases hk : k ≤ n
  · simp [revAt_le hk, Nat.lt_succ_of_le hk]
  · rw [revAt_eq_self_of_lt (Nat.lt_of_not_le hk), BitVec.getLsbD_of_ge v k (by omega)]
    simp [hk]

end

/-! ### The product of polynomials -/

theorem bitPoly_zext_shiftLeft (a : U64) {n : Nat} (hn : n ≤ 64) : bitPoly (a.setWidth 128 <<< n) = bitPoly a * X ^ n :=
  bitPoly_setWidth_shiftLeft a fun k hk => BitVec.getLsbD_of_ge a k (by omega)

theorem bitPoly_clmulUpTo (a b : U64) {n : Nat} (hn : n ≤ 64) :
    bitPoly (clmulUpTo a b n) =
      bitPoly a * ∑ j ∈ Finset.range n, if b.getLsbD j = true then (X : (ZMod 2)[X]) ^ j else 0 := by
  induction n with
  | zero => rw [clmulUpTo, bitPoly_zero, Finset.sum_range_zero, mul_zero]
  | succ n ih =>
    rw [clmulUpTo, bitPoly_xor, ih (by omega), apply_ite bitPoly, bitPoly_zero, bitPoly_zext_shiftLeft a (by omega),
      Finset.sum_range_succ, mul_add, mul_ite, mul_zero]

theorem bitPoly_clmul64 (a b : U64) : bitPoly (clmul64 a b) = bitPoly a * bitPoly b :=
  bitPoly_clmulUpTo a b (Nat.le_refl 64)

/-- Settles O21: the first two readings by the recursion of the partial products, the third by the product of polynomials. -/
theorem clmulIsCarryLessProduct : Obligations.ClmulIsCarryLessProduct := by
  unfold Obligations.ClmulIsCarryLessProduct
  exact fun a b => ⟨fun k hk => getLsbD_clmulUpTo a b 64 hk, clmulUpTo_eq_foldl_copies a b 64, bitPoly_clmul64 a b⟩

/-! ### The laws -/

theorem clmul64_comm (a b : U64) : clmul64 a b = clmul64 b a :=
  bitPoly_injective (by rw [bitPoly_clmul64, bitPoly_clmul64, mul_comm])

theorem clmul64_xor_left (a b c : U64) : clmul64 (a ^^^ c) b = clmul64 a b ^^^ clmul64 c b :=
  bitPoly_injective (by simp only [bitPoly_xor, bitPoly_clmul64, add_mul])

theorem clmul64_zero (a : U64) : clmul64 a 0 = 0 :=
  bitPoly_injective (by rw [bitPoly_clmul64, bitPoly_zero, bitPoly_zero, mul_zero])

/-- The product by a single bit is a shift. -/
theorem clmul64_twoPow (a : U64) {k : Nat} (hk : k < 64) : clmul64 a (BitVec.twoPow 64 k) = a.setWidth 128 <<< k :=
  bitPoly_injective (by rw [bitPoly_clmul64, bitPoly_twoPow hk, bitPoly_zext_shiftLeft a (by omega)])

/-- The degrees add up. -/
theorem clmul64_toNat_lt {a b : U64} {m n : Nat} (ha : a.toNat < 2 ^ (m + 1)) (hb : b.toNat < 2 ^ (n + 1)) :
    (clmul64 a b).toNat < 2 ^ (m + n + 1) := by
  rw [← natDegree_bitPoly_le_iff] at ha hb ⊢
  rw [bitPoly_clmul64]
  exact natDegree_mul_le_of_le ha hb

/-- Every product is below `2 ^ 127`. -/
theorem getLsbD_clmul64_of_le (a b : U64) {k : Nat} (hk : 127 ≤ k) : (clmul64 a b).getLsbD k = false := by
  have hlt : (clmul64 a b).toNat < 2 ^ 127 := clmul64_toNat_lt (m := 63) (n := 63) a.isLt b.isLt
  exact Nat.testBit_lt_two_pow (hlt.trans_le (Nat.pow_le_pow_right (by decide) hk))

/-- A product has degree at most 126, where the reversal of a u128 is about degree 127: hence the factor `X`. -/
theorem reverse_clmul64 (a b : U64) : (clmul64 a b).reverse = clmul64 a.reverse b.reverse <<< 1 := by
  have hdegree (v : U64) : (bitPoly v).natDegree ≤ 63 := (natDegree_bitPoly_le_iff v 63).2 v.isLt
  have hproduct : (bitPoly a * bitPoly b).natDegree ≤ 126 := natDegree_mul_le_of_le (hdegree a) (hdegree b)
  have hshift : bitPoly (clmul64 a.reverse b.reverse <<< 1) = bitPoly (clmul64 a.reverse b.reverse) * X := by
    simpa using bitPoly_setWidth_shiftLeft (w' := 128) (n := 1) (clmul64 a.reverse b.reverse) fun k hk =>
      getLsbD_clmul64_of_le _ _ (by omega)
  apply bitPoly_injective
  calc bitPoly (clmul64 a b).reverse
      = (bitPoly a * bitPoly b * 1).reflect (126 + 1) := by rw [bitPoly_reverse, bitPoly_clmul64, mul_one]
    _ = (bitPoly a * bitPoly b).reflect (63 + 63) * X := by
      rw [reflect_mul _ 1 hproduct (by simp), reflect_one, pow_one]
    _ = bitPoly a.reverse * bitPoly b.reverse * X := by
      rw [reflect_mul _ _ (hdegree a) (hdegree b), bitPoly_reverse, bitPoly_reverse]
    _ = bitPoly (clmul64 a.reverse b.reverse <<< 1) := by rw [hshift, bitPoly_clmul64]

/-- Settles O22: the laws of the polynomial product, and by the degrees its bounds. -/
theorem clmulLaws : Obligations.ClmulLaws := by
  unfold Obligations.ClmulLaws
  refine ⟨clmul64_comm, clmul64_xor_left, fun a => ⟨clmul64_zero a, ?_, fun k hk => ?_⟩, fun a b m n hm hn ha hb => ?_,
    fun a b => ⟨getLsbD_clmul64_of_le a b (Nat.le_refl 127), fun hb => ?_⟩, by decide +kernel, reverse_clmul64⟩
  · simpa [BitVec.twoPow_eq] using clmul64_twoPow a (k := 0) (by decide)
  · rw [← BitVec.twoPow_eq, clmul64_twoPow a hk]
  · obtain ⟨m, rfl⟩ := Nat.exists_eq_add_of_le' hm
    obtain ⟨n, rfl⟩ := Nat.exists_eq_add_of_le' hn
    rw [show m + 1 + (n + 1) - 1 = m + n + 1 by omega]
    exact clmul64_toNat_lt ha hb
  · exact clmul64_toNat_lt (m := 63) (n := 32) a.isLt hb

end Sys2Proof.Machine
end

section
/-! PROOFS. Functions additive over XOR: two of them are equal when they agree on the words with a single bit. -/

namespace Sys2Proof.Machine

section
variable {w m : Nat}

/-- The function is linear over GF(2). -/
def XorLinear (f : BitVec w → BitVec m) : Prop := ∀ u v, f (u ^^^ v) = f u ^^^ f v

variable {f g : BitVec w → BitVec m}

theorem XorLinear.map_zero (hf : XorLinear f) : f 0#w = 0#m := by
  have h := hf 0#w 0#w
  rwa [BitVec.xor_self, BitVec.xor_self] at h

theorem XorLinear.comp {l : Nat} {h : BitVec m → BitVec l} (hh : XorLinear h) (hf : XorLinear f) : XorLinear fun v => h (f v) :=
  fun u v => (congrArg h (hf u v)).trans (hh _ _)

theorem XorLinear.xor (hf : XorLinear f) (hg : XorLinear g) : XorLinear fun v => f v ^^^ g v := by
  intro u v
  simp only [hf u v, hg u v]
  ac_rfl

theorem xorLinear_setWidth : XorLinear fun v : BitVec w => v.setWidth m := fun _ _ => BitVec.setWidth_xor

theorem xorLinear_shiftLeft (n : Nat) : XorLinear fun v : BitVec w => v <<< n := fun u v => BitVec.shiftLeft_xor_distrib u v n

/-- Taking away its bit `n` makes a word of `n + 1` bits one of `n` bits. -/
theorem getLsbD_xor_twoPow_of_le {v : BitVec w} {n k : Nat} (hv : ∀ j, n + 1 ≤ j → v.getLsbD j = false)
    (hn : v.getLsbD n = true) (hk : n ≤ k) : (v ^^^ BitVec.twoPow w n).getLsbD k = false := by
  have hw : n < w := BitVec.lt_of_getLsbD hn
  rw [BitVec.getLsbD_xor, BitVec.getLsbD_twoPow]
  obtain rfl | hlt := Nat.eq_or_lt_of_le hk
  · simp [hn, hw]
  · simp [hv k hlt, Nat.ne_of_lt hlt]

/-- Two additive functions that agree on the single bits are equal. The induction is over the number of bits a word has. -/
theorem XorLinear.eq_of_twoPow (hf : XorLinear f) (hg : XorLinear g)
    (h : ∀ i < w, f (BitVec.twoPow w i) = g (BitVec.twoPow w i)) (v : BitVec w) : f v = g v := by
  suffices hbits : ∀ n (v : BitVec w), (∀ k, n ≤ k → v.getLsbD k = false) → f v = g v from
    hbits w v fun k hk => BitVec.getLsbD_of_ge v k hk
  intro n
  induction n with
  | zero =>
    intro v hv
    obtain rfl : v = 0#w := BitVec.eq_of_getLsbD_eq fun k _ => by rw [hv k k.zero_le, BitVec.getLsbD_zero]
    rw [hf.map_zero, hg.map_zero]
  | succ n ih =>
    intro v hv
    cases hn : v.getLsbD n with
    | false =>
      refine ih v fun k hk => ?_
      obtain rfl | hlt := Nat.eq_or_lt_of_le hk
      · exact hn
      · exact hv k hlt
    | true =>
      have hsplit : v = (v ^^^ BitVec.twoPow w n) ^^^ BitVec.twoPow w n := by
        rw [BitVec.xor_assoc, BitVec.xor_self, BitVec.xor_zero]
      rw [hsplit, hf, hg, ih _ fun k hk => getLsbD_xor_twoPow_of_le hv hn hk, h n (BitVec.lt_of_getLsbD hn)]

end

/-- A shift that keeps the bit. -/
theorem setWidth_twoPow_shiftLeft {w w' i n : Nat} (hi : i < w) (h : i + n < w') :
    (BitVec.twoPow w i).setWidth w' <<< n = BitVec.twoPow w' (i + n) := by
  refine BitVec.eq_of_getLsbD_eq fun k hk => ?_
  rw [BitVec.getLsbD_shiftLeft, BitVec.getLsbD_setWidth, BitVec.getLsbD_twoPow, BitVec.getLsbD_twoPow, Bool.eq_iff_iff]
  simp only [hk, hi, h, decide_true, Bool.true_and, Bool.and_eq_true, Bool.not_eq_true', decide_eq_true_eq, decide_eq_false_iff_not]
  omega

end Sys2Proof.Machine
end

section
/-! PROOFS. The scalar function by single-bit steps (40_scalar.md rules R90 to R93), and the CRC of a narrow lane (42_clmul.md rule R124): that of a
single bit is a power of the single-bit step. -/

namespace Sys2Proof.Machine

/-! ### The scalar function by single-bit steps (40_scalar.md rules R90 to R93) -/

theorem bitSteps_add (n k : Nat) (r : U32) : bitSteps (n + k) r = bitSteps k (bitSteps n r) := by
  simp only [bitSteps_eq_iterate]
  rw [Nat.add_comm, Function.iterate_add_apply]

theorem xorLinear_bitSteps (n : Nat) : XorLinear (bitSteps n) := bitSteps_xor n

/-- Eight single-bit steps shift the upper three bytes down and look the lowest one up. -/
theorem table_xor_ushiftRight (r : U32) : table (r.setWidth 8) ^^^ r >>> 8 = bitSteps 8 r := by
  have hlookup : XorLinear fun r : U32 => table (r.setWidth 8) := fun u v => by
    simp only [BitVec.setWidth_xor, table_xor]
  have hshift : XorLinear fun r : U32 => r >>> 8 := fun u v => BitVec.ushiftRight_xor_distrib u v 8
  exact (hlookup.xor hshift).eq_of_twoPow (xorLinear_bitSteps 8) (by decide) r

theorem crcStep_eq_bitSteps (c : U32) (b : U8) : crcStep c b = bitSteps 8 (c ^^^ b.setWidth 32) := by
  have hbyte : (b.setWidth 32 : U32) >>> 8 = 0 := BitVec.eq_of_getLsbD_eq fun k _ => by simp
  rw [← table_xor_ushiftRight, BitVec.ushiftRight_xor_distrib, hbyte]
  simp [crcStep]

theorem scalar_append (c : U32) (a b : List U8) : scalar c (a ++ b) = scalar (scalar c a) b := by
  induction a generalizing c with
  | nil => rfl
  | cons x a ih => exact ih (crcStep c x)

/-- The scalar function is linear in the CRC and the bytes together (rule R93 (b)). -/
theorem scalar_xor (c d : U32) {a b : List U8} (h : a.length = b.length) :
    scalar (c ^^^ d) (List.zipWith (· ^^^ ·) a b) = scalar c a ^^^ scalar d b := by
  induction a generalizing b c d with
  | nil =>
    obtain rfl := List.length_eq_zero_iff.1 h.symm
    rfl
  | cons x a ih =>
    obtain ⟨y, b, rfl⟩ := List.exists_of_length_succ b h.symm
    have hstep : crcStep (c ^^^ d) (x ^^^ y) = crcStep c x ^^^ crcStep d y := by
      simp only [crcStep_eq_bitSteps, ← bitSteps_xor, BitVec.setWidth_xor]
      congr 1
      ac_rfl
    rw [List.zipWith_cons_cons, scalar, hstep]
    exact ih _ _ (Nat.succ.inj h)

/-- A zero byte is eight single-bit steps. -/
theorem scalar_zeros (c : U32) (n : Nat) : scalar c (List.replicate n 0) = bitSteps (8 * n) c := by
  induction n generalizing c with
  | zero => rfl
  | succ n ih =>
    have hstep : crcStep c 0 = bitSteps 8 c := by simp [crcStep_eq_bitSteps]
    rw [List.replicate_succ, scalar, ih, hstep, ← bitSteps_add, Nat.mul_succ, Nat.add_comm]

/-- What was in the CRC before a string moves on as under zero bytes, beside the string's own CRC. -/
theorem scalar_eq_xor (c : U32) (s : List U8) : scalar c s = bitSteps (8 * s.length) c ^^^ scalar 0 s := by
  have hzip : List.zipWith (· ^^^ ·) (List.replicate s.length 0) s = s := by
    induction s with
    | nil => rfl
    | cons b s ih => simpa [List.replicate_succ] using ih
  have h := scalar_xor c 0 (a := List.replicate s.length 0) (b := s) List.length_replicate
  rw [hzip, scalar_zeros] at h
  simpa using h

/-! ### The CRC of a word's bytes -/

section
variable {w : Nat}

/-- The first `n` bytes of a word, least significant first. -/
def leBytes (n : Nat) (v : BitVec w) : List U8 := (List.range n).map fun i => v.extractLsb' (8 * i) 8

@[simp] theorem leBytes_length (n : Nat) (v : BitVec w) : (leBytes n v).length = n := by simp [leBytes]

theorem leBytes_xor (n : Nat) (u v : BitVec w) : leBytes n (u ^^^ v) = List.zipWith (· ^^^ ·) (leBytes n u) (leBytes n v) := by
  simp [leBytes, List.zipWith_map, BitVec.extractLsb'_xor]

theorem xorLinear_scalar_leBytes (n : Nat) : XorLinear fun v : BitVec w => scalar 0 (leBytes n v) := by
  intro u v
  simpa [leBytes_xor] using scalar_xor 0 0 (a := leBytes n u) (b := leBytes n v) (by simp)

theorem scalar_leBytes_succ (c : U32) (n : Nat) (v : BitVec w) :
    scalar c (leBytes (n + 1) v) = bitSteps 8 (scalar c (leBytes n v) ^^^ (v.extractLsb' (8 * n) 8).setWidth 32) := by
  rw [leBytes, List.range_succ, List.map_append, scalar_append]
  exact crcStep_eq_bitSteps _ _

theorem bitStep_twoPow_succ {k : Nat} (hk : k + 1 < 32) : bitStep (BitVec.twoPow 32 (k + 1)) = BitVec.twoPow 32 k := by
  refine BitVec.eq_of_getLsbD_eq fun j _ => ?_
  have hlow : (BitVec.twoPow 32 (k + 1)).getLsbD 0 = false := by simp
  have hplace : k + 1 = 1 + j ↔ k = j := by omega
  rw [bitStep, if_neg (by rw [hlow]; decide), BitVec.getLsbD_ushiftRight, BitVec.getLsbD_twoPow, BitVec.getLsbD_twoPow]
  simp only [hk, Nat.lt_of_succ_lt hk, hplace]

theorem bitSteps_twoPow_self {k : Nat} (hk : k < 32) : bitSteps k (BitVec.twoPow 32 k) = 1 := by
  induction k with
  | zero => decide
  | succ k ih => rw [bitSteps, bitStep_twoPow_succ hk, ih (by omega)]

/-- Bit `k` of a u32 is bit 0 after `k` steps. -/
theorem bitSteps_twoPow {k n : Nat} (hk : k < 32) (hn : k ≤ n) : bitSteps n (BitVec.twoPow 32 k) = bitSteps (n - k) 1 := by
  obtain ⟨m, rfl⟩ := Nat.exists_eq_add_of_le hn
  rw [bitSteps_add, bitSteps_twoPow_self hk, Nat.add_sub_cancel_left]

/-- A byte of a single-bit word. -/
theorem setWidth_extractLsb'_twoPow {i : Nat} (hi : i < w) (n : Nat) :
    ((BitVec.twoPow w i).extractLsb' (8 * n) 8).setWidth 32 =
      if 8 * n ≤ i ∧ i < 8 * n + 8 then BitVec.twoPow 32 (i - 8 * n) else 0#32 := by
  refine BitVec.eq_of_getLsbD_eq fun k hk => ?_
  rw [BitVec.getLsbD_setWidth, BitVec.getLsbD_extractLsb', BitVec.getLsbD_twoPow]
  split
  next h =>
    rw [BitVec.getLsbD_twoPow, Bool.eq_iff_iff]
    simp only [hk, hi, decide_true, Bool.true_and, Bool.and_eq_true, decide_eq_true_eq]
    omega
  next h =>
    have hother : k < 8 → ¬ i = 8 * n + k := by omega
    simpa [hk, hi] using hother

/-- The CRC of a single bit: as many steps on as there are bits from it to the end of the bytes. -/
theorem scalar_leBytes_twoPow {i : Nat} (hi : i < w) (n : Nat) :
    scalar 0 (leBytes n (BitVec.twoPow w i)) = if i < 8 * n then bitSteps (8 * n - i) 1 else 0#32 := by
  induction n with
  | zero => rfl
  | succ n ih =>
    rw [scalar_leBytes_succ, ih, setWidth_extractLsb'_twoPow hi]
    rcases Nat.lt_or_ge i (8 * n) with hbefore | hle
    · have hlast : 8 * (n + 1) - i = 8 * n - i + 8 := by omega
      have hnot : ¬ 8 * n ≤ i := by omega
      have hlt : i < 8 * (n + 1) := by omega
      simp only [hbefore, hnot, hlt, if_true, false_and, if_false, hlast, bitSteps_add, BitVec.xor_zero]
    · have hnot : ¬ i < 8 * n := by omega
      rcases Nat.lt_or_ge i (8 * n + 8) with hbyte | hafter
      · have hlast : 8 * (n + 1) - i = 8 - (i - 8 * n) := by omega
        have hlt : i < 8 * (n + 1) := by omega
        simp only [hnot, hle, hbyte, hlt, if_true, if_false, and_self, hlast, BitVec.zero_xor]
        exact bitSteps_twoPow (by omega) (by omega)
      · have hlt : ¬ i < 8 * (n + 1) := by omega
        simp only [hnot, hlt, Nat.not_lt.mpr hafter, and_false, if_false, BitVec.xor_self]
        exact (xorLinear_bitSteps 8).map_zero

end

/-! ### The CRC of a narrow lane (rule R124) -/

theorem laneCrc_eq_scalar_leBytes (v : U128) : laneCrc v = scalar 0 (leBytes 16 v) := rfl

theorem xorLinear_laneCrc : XorLinear laneCrc := xorLinear_scalar_leBytes 16

theorem laneCrc_twoPow {i : Nat} (hi : i < 128) : laneCrc (BitVec.twoPow 128 i) = bitSteps (128 - i) 1 := by
  rw [laneCrc_eq_scalar_leBytes, scalar_leBytes_twoPow hi, if_pos hi]

/-- A bit further left is a step fewer to the end of the lane. -/
theorem laneCrc_shiftLeft (k : U64) {n : Nat} (hn : n ≤ 64) :
    laneCrc (k.setWidth 128 <<< n) = bitSteps (64 - n) (laneCrc (k.setWidth 128 <<< 64)) := by
  have hshift (n : Nat) : XorLinear fun k : U64 => laneCrc (k.setWidth 128 <<< n) :=
    xorLinear_laneCrc.comp ((xorLinear_shiftLeft n).comp xorLinear_setWidth)
  refine (hshift n).eq_of_twoPow ((xorLinear_bitSteps _).comp (hshift 64)) (fun i hi => ?_) k
  rw [setWidth_twoPow_shiftLeft hi (by omega), setWidth_twoPow_shiftLeft hi (by omega), laneCrc_twoPow (by omega),
    laneCrc_twoPow (by omega), ← bitSteps_add]
  congr 1
  omega

end Sys2Proof.Machine
end

section
/-! PROOFS. The fold constants and folding (42_clmul.md rules R120 to R124): a remainder of `P` in reflected order is a run of single-bit steps, and
with the pair rule R122 gives for it the fold law holds for every distance. -/

namespace Sys2Proof.Machine

/-! ### The constants (rule R122) -/

theorem foldConst_toNat_lt (n : Nat) : (foldConst n).toNat < 2 ^ 33 := by
  have hlt := (xPowMod n).reverse.isLt
  rw [foldConst, BitVec.toNat_shiftLeft, BitVec.toNat_setWidth]
  omega

theorem xPowTimes_eq_iterate (n : Nat) (r : U32) : xPowTimes n r = mulX^[n] r := by
  induction n generalizing r with
  | zero => rfl
  | succ n ih => exact ih (mulX r)

theorem xPowMod_add (n k : Nat) : xPowMod (n + k) = xPowTimes k (xPowMod n) := by
  simp only [xPowMod, xPowTimes_eq_iterate]
  rw [Nat.add_comm, Function.iterate_add_apply]

theorem xPowMod_succ (n : Nat) : xPowMod (n + 1) = mulX (xPowMod n) := xPowMod_add n 1

theorem reverse_xor (u v : U32) : (u ^^^ v).reverse = u.reverse ^^^ v.reverse := by
  refine BitVec.eq_of_getLsbD_eq fun k hk => ?_
  simp only [BitVec.getLsbD_xor, BitVec.getLsbD_reverse, BitVec.getMsbD, Bool.and_xor_distrib_left]

theorem reverse_shiftLeft_one (r : U32) : (r <<< 1).reverse = r.reverse >>> 1 := by
  refine BitVec.eq_of_getLsbD_eq fun k hk => ?_
  simp only [BitVec.getLsbD_ushiftRight, BitVec.getLsbD_reverse, BitVec.getMsbD, BitVec.getLsbD_shiftLeft]
  by_cases h : 1 + k < 32
  · have hrange : 32 - 1 - k < 32 ∧ ¬ 32 - 1 - k < 1 ∧ 32 - 1 - k - 1 = 32 - 1 - (1 + k) := by omega
    simp [hk, h, hrange]
  · obtain rfl : k = 31 := by omega
    rfl

/-- Multiplication by `x` modulo `P` in normal order is the single-bit step in reflected order (rule R9). -/
theorem reverse_mulX (r : U32) : (mulX r).reverse = bitStep r.reverse := by
  have htest : r.reverse.getLsbD 0 = r.getLsbD 31 := BitVec.getLsbD_reverse
  have hpoly : polyNormal.reverse = polyReflected := by decide +kernel
  rw [mulX, bitStep, htest, apply_ite BitVec.reverse, reverse_xor, reverse_shiftLeft_one, hpoly]

theorem reverse_xPowMod (n : Nat) : (xPowMod n).reverse = bitSteps n (BitVec.twoPow 32 31) := by
  induction n with
  | zero => decide +kernel
  | succ n ih => rw [xPowMod_succ, reverse_mulX, ih, bitSteps_add]; rfl

/-- Powers of `x` on the way to the greatest exponents, each evaluated from the one before it. -/
theorem xPowMod_values :
    xPowMod 480 = 0xD3504EC7#32 ∧ xPowMod 960 = 0x2ECC3300#32 ∧ xPowMod 1440 = 0x70DAAD03#32 ∧ xPowMod 1920 = 0x3CB34BF1#32 := by
  have h480 : xPowMod 480 = 0xD3504EC7#32 := by decide +kernel
  have h960 : xPowMod 960 = 0x2ECC3300#32 := (xPowMod_add 480 480).trans (by rw [h480]; decide +kernel)
  have h1440 : xPowMod 1440 = 0x70DAAD03#32 := (xPowMod_add 960 480).trans (by rw [h960]; decide +kernel)
  have h1920 : xPowMod 1920 = 0x3CB34BF1#32 := (xPowMod_add 1440 480).trans (by rw [h1440]; decide +kernel)
  exact ⟨h480, h960, h1440, h1920⟩

theorem rom_zero_eq : rom 0 = foldPair 2048 := by
  obtain ⟨-, -, -, h1920⟩ := xPowMod_values
  have h2080 : xPowMod 2080 = xPowTimes 160 0x3CB34BF1#32 := (xPowMod_add 1920 160).trans (by rw [h1920])
  have h2016 : xPowMod 2016 = xPowTimes 96 0x3CB34BF1#32 := (xPowMod_add 1920 96).trans (by rw [h1920])
  show _ = pair (((xPowMod 2080).reverse.setWidth 64) <<< 1) (((xPowMod 2016).reverse.setWidth 64) <<< 1)
  rw [h2080, h2016]
  decide +kernel

theorem rom_one_eq : rom 1 = foldPair 512 := by
  obtain ⟨h480, -, -, -⟩ := xPowMod_values
  have h544 : xPowMod 544 = xPowTimes 64 0xD3504EC7#32 := (xPowMod_add 480 64).trans (by rw [h480])
  show _ = pair (((xPowMod 544).reverse.setWidth 64) <<< 1) (((xPowMod 480).reverse.setWidth 64) <<< 1)
  rw [h544, h480]
  decide +kernel

theorem rom_two_eq : rom 2 = foldPair 128 := by decide +kernel

/-- A remainder where a fold constant has it, shifted left by one, in a lane's upper half. -/
theorem laneCrc_shifted_remainder (r : U32) : laneCrc ((r.setWidth 64 <<< 1).setWidth 128 <<< 64) = bitSteps 63 r := by
  have hplace : XorLinear fun r : U32 => (r.setWidth 64 <<< 1).setWidth 128 <<< 64 :=
    (xorLinear_shiftLeft 64).comp (xorLinear_setWidth.comp ((xorLinear_shiftLeft 1).comp xorLinear_setWidth))
  refine (xorLinear_laneCrc.comp hplace).eq_of_twoPow (xorLinear_bitSteps 63) (fun i hi => ?_) r
  rw [setWidth_twoPow_shiftLeft hi (by omega), setWidth_twoPow_shiftLeft (by omega) (by omega), laneCrc_twoPow (by omega),
    bitSteps_twoPow hi (by omega)]
  congr 1
  omega

theorem laneCrc_foldConst (n : Nat) : laneCrc ((foldConst n).setWidth 128 <<< 64) = bitSteps (n + 32) 1 := by
  rw [foldConst, laneCrc_shifted_remainder, reverse_xPowMod, ← bitSteps_add, bitSteps_twoPow (by decide) (by omega)]
  rfl

/-! ### The fold law, for every distance -/

/-- Multiplying a half by `K(n)` moves its CRC on by `d` bits, where the half stands `s` bits up in its lane (rule R123). -/
theorem laneCrc_clmul64_foldConst (a : U64) {n s d : Nat} (hs : s ≤ 64) (h : n + s = d + 32) :
    laneCrc (clmul64 a (foldConst n)) = bitSteps d (laneCrc (a.setWidth 128 <<< s)) := by
  have hproduct : XorLinear fun a : U64 => clmul64 a (foldConst n) := fun u v => clmul64_xor_left u _ v
  have hhalf : XorLinear fun a : U64 => a.setWidth 128 <<< s := (xorLinear_shiftLeft s).comp xorLinear_setWidth
  refine (xorLinear_laneCrc.comp hproduct).eq_of_twoPow ((xorLinear_bitSteps d).comp (xorLinear_laneCrc.comp hhalf))
    (fun i hi => ?_) a
  rw [clmul64_comm, clmul64_twoPow _ hi, laneCrc_shiftLeft _ (by omega), laneCrc_foldConst,
    setWidth_twoPow_shiftLeft hi (by omega), laneCrc_twoPow (by omega), ← bitSteps_add, ← bitSteps_add]
  congr 1
  omega

@[simp] theorem half_lo_pair (x y : U64) : half .lo (pair x y) = x := BitVec.extractLsb'_append_eq_right
@[simp] theorem half_hi_pair (x y : U64) : half .hi (pair x y) = y := BitVec.extractLsb'_append_eq_left

/-- A lane is its two halves at their places. -/
theorem half_xor_half (v : U128) : (half .lo v).setWidth 128 ^^^ (half .hi v).setWidth 128 <<< 64 = v := by
  refine BitVec.eq_of_getLsbD_eq fun k hk => ?_
  simp only [half, BitVec.getLsbD_xor, BitVec.getLsbD_shiftLeft, BitVec.getLsbD_setWidth, BitVec.getLsbD_extractLsb']
  by_cases hlow : k < 64
  · simp [hk, hlow]
  · have hrange : k - 64 < 64 ∧ k - 64 < 128 ∧ 64 + (k - 64) = k := by omega
    simp [hk, hlow, hrange]

/-- The fold law for every distance, with the pair rule R122 gives for it. -/
theorem laneCrc_fold128_foldPair (a data : U128) {d : Nat} (hd : 32 ≤ d) :
    laneCrc (fold128 a data (foldPair d)) = bitSteps d (laneCrc a) ^^^ laneCrc data := by
  have hlo := laneCrc_clmul64_foldConst (half .lo a) (n := d + 32) (s := 0) (d := d) (by decide) rfl
  have hhi := laneCrc_clmul64_foldConst (half .hi a) (n := d - 32) (s := 64) (d := d) (by decide) (by omega)
  rw [fold128, clmul, clmul, foldPair, half_lo_pair, half_hi_pair, xorLinear_laneCrc, xorLinear_laneCrc, hlo, hhi, ← bitSteps_xor,
    ← xorLinear_laneCrc, BitVec.shiftLeft_zero, half_xor_half]

/-- Two lanes with zero bytes between them, as one string. -/
theorem scalar_lanes (a data : U128) (n : Nat) :
    scalar 0 (le16 a ++ List.replicate n 0 ++ le16 data) = bitSteps (8 * n + 128) (laneCrc a) ^^^ laneCrc data := by
  rw [scalar_append, scalar_append, scalar_zeros, scalar_eq_xor, ← bitSteps_add]
  rfl

/-! ### The wide fold (rule R121) -/

theorem lane_xor (u v : U512) (j : Nat) : lane (u ^^^ v) j = lane u j ^^^ lane v j := BitVec.extractLsb'_xor

theorem lane_joinLanes (l : Nat → U128) {j : Nat} (hj : j < 4) : lane (joinLanes (l 0) (l 1) (l 2) (l 3)) j = l j := by
  obtain rfl | rfl | rfl | rfl : j = 0 ∨ j = 1 ∨ j = 2 ∨ j = 3 := by omega
  · exact BitVec.extractLsb'_append_eq_right
  · exact (BitVec.extractLsb'_append_eq_of_le (by decide)).trans BitVec.extractLsb'_append_eq_right
  · exact (BitVec.extractLsb'_append_eq_of_le (by decide)).trans
      ((BitVec.extractLsb'_append_eq_of_le (by decide)).trans BitVec.extractLsb'_append_eq_right)
  · exact (BitVec.extractLsb'_append_eq_of_le (by decide)).trans
      ((BitVec.extractLsb'_append_eq_of_le (by decide)).trans BitVec.extractLsb'_append_eq_left)

theorem lane_bcast (k : U128) {j : Nat} (hj : j < 4) : lane (bcast k) j = k := lane_joinLanes (fun _ => k) hj

theorem lane_vclmul (ha hb : Half) (a b : U512) {j : Nat} (hj : j < 4) :
    lane (vclmul ha hb a b) j = clmul ha hb (lane a j) (lane b j) :=
  lane_joinLanes (fun j => clmul ha hb (lane a j) (lane b j)) hj

/-! ### The statements -/

section
variable {k : Fin 6} {d : Nat}

/-- The three fold distances and their pairs (rule R122). -/
theorem rom_eq_foldPair (h : (k.val, d) ∈ [(0, 2048), (1, 512), (2, 128)]) :
    rom k = foldPair d ∧ 8 * (d / 8 - 16) + 128 = d := by
  simp only [List.mem_cons, Prod.mk.injEq, List.not_mem_nil, or_false] at h
  obtain ⟨hk, rfl⟩ | ⟨hk, rfl⟩ | ⟨hk, rfl⟩ := h
  · exact ⟨(congrArg rom (Fin.ext hk)).trans rom_zero_eq, rfl⟩
  · exact ⟨(congrArg rom (Fin.ext hk)).trans rom_one_eq, rfl⟩
  · exact ⟨(congrArg rom (Fin.ext hk)).trans rom_two_eq, rfl⟩

/-- The fold law with the ROM's constants (rule R124). -/
theorem laneCrc_fold128_rom (h : (k.val, d) ∈ [(0, 2048), (1, 512), (2, 128)]) (a data : U128) :
    laneCrc (fold128 a data (rom k)) = scalar 0 (le16 a ++ List.replicate (d / 8 - 16) 0 ++ le16 data) := by
  obtain ⟨hrom, hd⟩ := rom_eq_foldPair h
  rw [hrom, laneCrc_fold128_foldPair a data (by omega), scalar_lanes, hd]

end

/-- Folding the lowest bit of a lane gives the low element of the pair. -/
theorem fold128_one (p : U128) : fold128 1 0 p = (half .lo p).setWidth 128 := by
  have hlo : half .lo 1 = BitVec.twoPow 64 0 := by decide
  have hhi : half .hi 1 = 0 := by decide
  rw [fold128, clmul, clmul, hlo, hhi, clmul64_comm, clmul64_twoPow _ (by decide), clmul64_comm 0, clmul64_zero]
  simp

/-- Folding the lowest bit of the upper half gives the high element of the pair. -/
theorem fold128_twoPow_64 (p : U128) : fold128 (BitVec.twoPow 128 64) 0 p = (half .hi p).setWidth 128 := by
  have hlo : half .lo (BitVec.twoPow 128 64) = 0 := by decide
  have hhi : half .hi (BitVec.twoPow 128 64) = BitVec.twoPow 64 0 := by decide
  rw [fold128, clmul, clmul, hlo, hhi, clmul64_comm, clmul64_zero, clmul64_comm, clmul64_twoPow _ (by decide)]
  simp

/-- Settles O29: the law is that of `foldPair d`; a pair under which it holds too agrees with the ROM's on the two lanes that give its elements
back. -/
theorem foldLaw : Obligations.FoldLaw := by
  unfold Obligations.FoldLaw
  intro k d h
  refine ⟨laneCrc_fold128_rom h, fun p hp => ?_⟩
  by_contra hlaw
  push Not at hlaw
  have hsame (a data : U128) : laneCrc (fold128 a data p) = laneCrc (fold128 a data (rom k)) :=
    (hlaw a data).trans (laneCrc_fold128_rom h a data).symm
  have hlo := hsame 1 0
  have hhi := hsame (BitVec.twoPow 128 64) 0
  rw [fold128_one, fold128_one] at hlo
  rw [fold128_twoPow_64, fold128_twoPow_64] at hhi
  exact hp.elim (fun hne => hne hlo) fun hne => hne hhi

/-- Settles O28: the pairs by evaluation, the bound by the width of a remainder, and `x ^ 64` divided by `P` with its remainder. -/
theorem romComesFromThePolynomial : Obligations.RomComesFromThePolynomial := by
  unfold Obligations.RomComesFromThePolynomial
  refine ⟨fun n => ⟨foldConst_toNat_lt n, rfl⟩, ⟨rfl, xPowMod_succ⟩, fun k d h => ?_, by decide +kernel, by decide +kernel,
    0x104D101DF#33, (xPowMod 64).setWidth 33, by decide +kernel⟩
  obtain ⟨hrom, -⟩ := rom_eq_foldPair h
  rw [hrom]
  exact ⟨half_lo_pair _ _, half_hi_pair _ _⟩

/-- Settles O26: the halves are parts of the lane, and the order of an exclusive or is free. -/
theorem fold128IsTheFoldAndXorPattern : Obligations.Fold128IsTheFoldAndXorPattern := by
  unfold Obligations.Fold128IsTheFoldAndXorPattern
  refine ⟨fun acc data k => ⟨rfl, ?_⟩, by decide +kernel⟩
  rw [fold128, BitVec.xor_comm, BitVec.xor_assoc, BitVec.xor_comm (clmul .lo .lo acc k)]
  rfl

/-- Settles O27: each sub-lane of the products, of the pair and of the exclusive or. -/
theorem fold512IsFold128PerLane : Obligations.Fold512IsFold128PerLane := by
  unfold Obligations.Fold512IsFold128PerLane
  intro acc data k j hj
  rw [fold512, fold128, lane_xor, lane_xor, lane_vclmul _ _ _ _ hj, lane_vclmul _ _ _ _ hj, lane_bcast k hj]

end Sys2Proof.Machine
end

section
/-! PROOFS. The reduction (45_reduce.md rules R171 to R174). Both lines of `R.FOLD64` move a lane's CRC on by the bits they shift out; `R.BARRETT` adds a
multiple of `P'`, which leaves the CRC as it is and clears the low 32 bits. So the result lane, 96 steps on, is the CRC of the sixteen bytes, 96 steps
on; and a single-bit step loses nothing. -/

namespace Sys2Proof.Machine

open Polynomial

/-! ### The low bits of a lane, which a line of `R.FOLD64` multiplies -/

/-- The low `d` bits of a lane, as the multiplier takes them. -/
def lowBits (d : Nat) (v : U128) : U64 := (v.setWidth d).setWidth 64

theorem getLsbD_lowBits {d : Nat} (hd : d ≤ 64) (v : U128) (k : Nat) : (lowBits d v).getLsbD k = (decide (k < d) && v.getLsbD k) := by
  rw [lowBits, BitVec.getLsbD_setWidth, BitVec.getLsbD_setWidth]
  by_cases hk : k < d
  · have hrange : k < 64 := by omega
    simp [hrange]
  · simp [hk]

theorem lowBits_toNat_lt (d : Nat) (v : U128) : (lowBits d v).toNat < 2 ^ d := by
  rw [lowBits, BitVec.toNat_setWidth]
  exact (Nat.mod_le _ _).trans_lt (v.setWidth d).isLt

theorem half_lo_eq_lowBits (v : U128) : half .lo v = lowBits 64 v := by
  rw [half, lowBits, BitVec.setWidth_eq, BitVec.setWidth_eq_extractLsb' (by decide)]

/-- The mask `ROM[5]` cuts a multiplier operand to 32 bits. -/
theorem half_lo_and_rom_five (v : U128) : half .lo (v &&& rom 5) = lowBits 32 v := by
  have hmask : ∀ k < 64, (rom 5).getLsbD k = decide (k < 32) := by decide
  refine BitVec.eq_of_getLsbD_eq fun k hk => ?_
  rw [half_lo_eq_lowBits, getLsbD_lowBits (by decide), getLsbD_lowBits (by decide), BitVec.getLsbD_and, hmask k hk]
  simp [hk, Bool.and_comm]

/-- A lane is its low `d` bits and the others at their places. -/
theorem lowBits_xor_ushiftRight (v : U128) {d : Nat} (hd : d ≤ 64) : (lowBits d v).setWidth 128 ^^^ v >>> d <<< d = v := by
  refine BitVec.eq_of_getLsbD_eq fun k hk => ?_
  simp only [BitVec.getLsbD_xor, BitVec.getLsbD_shiftLeft, BitVec.getLsbD_ushiftRight, BitVec.getLsbD_setWidth, getLsbD_lowBits hd]
  by_cases hlow : k < d
  · simp [hk, hlow]
  · have hplace : d + (k - d) = k := by omega
    simp [hk, hlow, hplace]

/-! ### `R.FOLD64` (rule R171) -/

/-- One line of `R.FOLD64`: the low `d` bits, multiplied by `K(d + 32)`, are folded into what a shift by `d` leaves. -/
def foldDown (d : Nat) (v : U128) : U128 := v >>> d ^^^ clmul64 (lowBits d v) (foldConst (d + 32))

theorem foldTo64_eq_foldDown (v : U128) : foldTo64 v = foldDown 32 (foldDown 64 v) := by
  have hk96 : half .hi (rom 2) = foldConst 96 := by rw [rom_two_eq, foldPair, half_hi_pair]
  have hk64 : half .lo (rom 3) = foldConst 64 := by decide +kernel
  have hfirst : foldTo96 v = foldDown 64 v := by rw [foldTo96, clmul, hk96, half_lo_eq_lowBits]; rfl
  rw [foldTo64, clmul, hk64, half_lo_and_rom_five, hfirst, BitVec.xor_comm]
  rfl

/-- A word that leaves the top `n` bits of its lane free is `n` steps on from where it stands when moved up by them. -/
theorem laneCrc_setWidth {m n : Nat} (k : BitVec m) (h : m + n ≤ 128) :
    laneCrc (k.setWidth 128) = bitSteps n (laneCrc (k.setWidth 128 <<< n)) := by
  refine (xorLinear_laneCrc.comp xorLinear_setWidth).eq_of_twoPow
    ((xorLinear_bitSteps n).comp (xorLinear_laneCrc.comp ((xorLinear_shiftLeft n).comp xorLinear_setWidth))) (fun i hi => ?_) k
  have hplace : (BitVec.twoPow m i).setWidth 128 = BitVec.twoPow 128 i := by
    simpa using setWidth_twoPow_shiftLeft (w' := 128) (n := 0) hi (by omega)
  rw [setWidth_twoPow_shiftLeft hi (by omega), hplace, laneCrc_twoPow (by omega), laneCrc_twoPow (by omega), ← bitSteps_add]
  congr 1
  omega

theorem laneCrc_ushiftRight (v : U128) {n : Nat} (hn : n ≤ 128) : laneCrc (v >>> n) = bitSteps n (laneCrc (v >>> n <<< n)) := by
  have hupper : (v.extractLsb' n (128 - n)).setWidth 128 = v >>> n := by
    refine BitVec.eq_of_getLsbD_eq fun k hk => ?_
    by_cases hin : k < 128 - n
    · simp [hk, hin]
    · simp [hin, BitVec.getLsbD_of_ge v (n + k) (by omega)]
  rw [← hupper]
  exact laneCrc_setWidth _ (by omega)

/-- One line of `R.FOLD64` moves the CRC on by `d` bits. -/
theorem laneCrc_foldDown (v : U128) {d : Nat} (hd : d ≤ 64) : laneCrc (foldDown d v) = bitSteps d (laneCrc v) := by
  have hlow := laneCrc_clmul64_foldConst (lowBits d v) (n := d + 32) (s := 0) (d := d) (by decide) rfl
  rw [foldDown, xorLinear_laneCrc, hlow, BitVec.shiftLeft_zero, laneCrc_ushiftRight v (by omega), ← bitSteps_xor, ← xorLinear_laneCrc,
    BitVec.xor_comm, lowBits_xor_ushiftRight v hd]

theorem laneCrc_foldTo64 (v : U128) : laneCrc (foldTo64 v) = bitSteps 96 (laneCrc v) := by
  rw [foldTo64_eq_foldDown, laneCrc_foldDown _ (by decide), laneCrc_foldDown _ (by decide), ← bitSteps_add]

/-- What is shifted leaves, and what is multiplied reaches, `d + 32` bits. -/
theorem foldDown_toNat_lt {v : U128} {d : Nat} (hd : 0 < d) (hv : v.toNat < 2 ^ (d + (d + 32))) : (foldDown d v).toNat < 2 ^ (d + 32) := by
  obtain ⟨m, rfl⟩ := Nat.exists_eq_add_of_le' hd
  have hshift : (v >>> (m + 1)).toNat < 2 ^ (m + 1 + 32) := by
    rw [BitVec.toNat_ushiftRight, Nat.shiftRight_eq_div_pow]
    exact Nat.div_lt_of_lt_mul (by rwa [← Nat.pow_add])
  have hproduct : (clmul64 (lowBits (m + 1) v) (foldConst (m + 1 + 32))).toNat < 2 ^ (m + 32 + 1) :=
    clmul64_toNat_lt (lowBits_toNat_lt _ v) (foldConst_toNat_lt _)
  exact Nat.xor_lt_two_pow hshift (by rwa [Nat.add_right_comm])

/-- The first reduction leaves 64 bits. -/
theorem foldTo64_toNat_lt (v : U128) : (foldTo64 v).toNat < 2 ^ 64 := by
  have hfirst : (foldDown 64 v).toNat < 2 ^ 96 :=
    foldDown_toNat_lt (by decide) (v.isLt.trans_le (Nat.pow_le_pow_right (by decide) (by decide)))
  rw [foldTo64_eq_foldDown]
  exact foldDown_toNat_lt (by decide) hfirst

/-! ### `R.BARRETT` (rules R172 and R174) -/

/-- Every multiple of `P'` has the CRC zero. -/
theorem laneCrc_clmul64_modulus (q : U64) : laneCrc (clmul64 q (half .lo (rom 4))) = 0#32 := by
  have hzero : laneCrc ((half .lo (rom 4)).setWidth 128 <<< 64) = 0#32 := by decide +kernel
  have hproduct : XorLinear fun q : U64 => clmul64 q (half .lo (rom 4)) := fun u v => clmul64_xor_left u _ v
  refine (xorLinear_laneCrc.comp hproduct).eq_of_twoPow (g := fun _ => 0#32) (fun _ _ => BitVec.xor_self.symm) (fun i hi => ?_) q
  rw [clmul64_comm, clmul64_twoPow _ hi, laneCrc_shiftLeft _ (by omega), hzero]
  exact (xorLinear_bitSteps _).map_zero

theorem laneCrc_barrett (v : U128) : laneCrc (barrett v) = laneCrc v := by
  rw [barrett, clmul, xorLinear_laneCrc, laneCrc_clmul64_modulus, BitVec.xor_zero]

theorem barrett_toNat_lt {v : U128} (hv : v.toNat < 2 ^ 64) : (barrett v).toNat < 2 ^ 64 := by
  have hmodulus : (half .lo (rom 4)).toNat < 2 ^ 33 := by decide
  have hquotient : (half .lo (barrettQuotient v &&& rom 5)).toNat < 2 ^ 32 := by
    rw [half_lo_and_rom_five]
    exact lowBits_toNat_lt 32 _
  exact Nat.xor_lt_two_pow hv (clmul64_toNat_lt (m := 31) (n := 32) hquotient hmodulus)

/-- Two words are congruent modulo `X ^ n` when their low `n` bits are the same. -/
theorem X_pow_dvd_bitPoly_sub_iff {w w' : Nat} (u : BitVec w) (v : BitVec w') (n : Nat) :
    X ^ n ∣ bitPoly u - bitPoly v ↔ ∀ k < n, u.getLsbD k = v.getLsbD k := by
  simp only [X_pow_dvd_iff, coeff_sub, sub_eq_zero, coeff_bitPoly]
  refine forall₂_congr fun k _ => ?_
  cases u.getLsbD k <;> cases v.getLsbD k <;> simp

theorem X_pow_dvd_sub_masked (v : U128) : X ^ 32 ∣ bitPoly v - bitPoly (half .lo (v &&& rom 5)) := by
  refine (X_pow_dvd_bitPoly_sub_iff v _ 32).2 fun k hk => ?_
  rw [half_lo_and_rom_five, getLsbD_lowBits (by decide), decide_eq_true hk, Bool.true_and]

/-- `MU'` is the inverse of `P'` modulo `X ^ 32`. -/
theorem X_pow_dvd_mu_mul_modulus_sub_one : X ^ 32 ∣ bitPoly (half .hi (rom 4)) * bitPoly (half .lo (rom 4)) - 1 := by
  have hone : bitPoly (1#128) = 1 := bitPoly_twoPow (w := 128) (k := 0) (by decide)
  rw [← bitPoly_clmul64, ← hone, X_pow_dvd_bitPoly_sub_iff]
  decide +kernel

/-- The low 32 bits cancel: modulo `X ^ 32` the second product is the operand times `MU'` times `P'`. -/
theorem X_pow_dvd_barrett (v : U128) : X ^ 32 ∣ bitPoly (barrett v) := by
  have hproduct : bitPoly (barrettQuotient v) = bitPoly (half .lo (v &&& rom 5)) * bitPoly (half .hi (rom 4)) := bitPoly_clmul64 _ _
  have hbarrett : bitPoly (barrett v) =
      bitPoly v - bitPoly (half .lo (barrettQuotient v &&& rom 5)) * bitPoly (half .lo (rom 4)) := by
    rw [barrett, clmul, bitPoly_xor, bitPoly_clmul64, CharTwo.sub_eq_add]
  have hquotient := X_pow_dvd_sub_masked (barrettQuotient v)
  rw [hproduct] at hquotient
  rw [hbarrett]
  convert ((X_pow_dvd_sub_masked v).add (hquotient.mul_right (bitPoly (half .lo (rom 4))))).sub
    (X_pow_dvd_mu_mul_modulus_sub_one.mul_left (bitPoly (half .lo (v &&& rom 5)))) using 1
  ring

theorem getLsbD_barrett_of_lt (v : U128) {k : Nat} (hk : k < 32) : (barrett v).getLsbD k = false :=
  (coeff_bitPoly_eq_zero _ k).1 (X_pow_dvd_iff.1 (X_pow_dvd_barrett v) k hk)

/-! ### The result lane -/

/-- A lane with nothing outside bits 63:32 is its result lane at its place. -/
theorem setWidth_resultLane_shiftLeft {v : U128} (hv : v.toNat < 2 ^ 64) (hlow : ∀ k < 32, v.getLsbD k = false) :
    (resultLane v).setWidth 128 <<< 32 = v := by
  refine BitVec.eq_of_getLsbD_eq fun k hk => ?_
  simp only [resultLane, BitVec.getLsbD_shiftLeft, BitVec.getLsbD_setWidth, BitVec.getLsbD_extractLsb']
  rcases Nat.lt_or_ge k 32 with hbelow | hfrom
  · simp [hbelow, hlow k hbelow]
  rcases Nat.lt_or_ge k 64 with hin | habove
  · have hplace : k - 32 < 32 ∧ k - 32 < 128 ∧ 32 + (k - 32) = k := by omega
    simp [hk, Nat.not_lt.mpr hfrom, hplace]
  · have hzero : v.getLsbD k = false := Nat.testBit_lt_two_pow (hv.trans_le (Nat.pow_le_pow_right (by decide) habove))
    have hout : ¬ k - 32 < 32 := by omega
    simp [hzero, hout]

theorem laneCrc_setWidth_shiftLeft (r : U32) : laneCrc (r.setWidth 128 <<< 32) = bitSteps 96 r := by
  refine (xorLinear_laneCrc.comp ((xorLinear_shiftLeft 32).comp xorLinear_setWidth)).eq_of_twoPow (xorLinear_bitSteps 96)
    (fun i hi => ?_) r
  rw [setWidth_twoPow_shiftLeft hi (by omega), laneCrc_twoPow (by omega), bitSteps_twoPow hi (by omega)]
  congr 1
  omega

/-- The bit a step shifts out is the top bit of what it leaves. -/
theorem bitStep_injective : Function.Injective bitStep := by
  intro a b h
  have htop (r : U32) : (bitStep r).getLsbD 31 = r.getLsbD 0 := by
    have hpoly : polyReflected.getLsbD 31 = true := by decide
    rw [bitStep_eq_xor_ite, BitVec.getLsbD_xor, getLsbD_ite_zero, hpoly]
    simp
  have hlow : a.getLsbD 0 = b.getLsbD 0 := by rw [← htop, ← htop, h]
  have hshift : a >>> 1 = b >>> 1 := by
    rwa [bitStep_eq_xor_ite, bitStep_eq_xor_ite, hlow, BitVec.xor_left_inj] at h
  refine BitVec.eq_of_getLsbD_eq fun k _ => ?_
  cases k with
  | zero => exact hlow
  | succ k => simpa [Nat.add_comm] using congrArg (·.getLsbD k) hshift

theorem bitSteps_injective (n : Nat) : Function.Injective (bitSteps n) := by
  rw [funext (bitSteps_eq_iterate n)]
  exact bitStep_injective.iterate n

/-- The reduction law on values (rule R173). -/
theorem resultLane_barrett_foldTo64 (v : U128) : resultLane (barrett (foldTo64 v)) = laneCrc v := by
  have hplace : (resultLane (barrett (foldTo64 v))).setWidth 128 <<< 32 = barrett (foldTo64 v) :=
    setWidth_resultLane_shiftLeft (barrett_toNat_lt (foldTo64_toNat_lt v)) fun k hk => getLsbD_barrett_of_lt _ hk
  apply bitSteps_injective 96
  calc bitSteps 96 (resultLane (barrett (foldTo64 v)))
      = laneCrc (barrett (foldTo64 v)) := by rw [← laneCrc_setWidth_shiftLeft, hplace]
    _ = bitSteps 96 (laneCrc v) := by rw [laneCrc_barrett, laneCrc_foldTo64]

/-! ### The two operations -/

section
variable {s : State} {v : U128}

theorem exec_rFold64 (htier : s.tier ≠ 0b11#2) (htier0 : s.tier ≠ 0b00#2) (hfeat : hasFeature s.straps.platform .narrowLanes = true)
    (hx : s.x.r0 = .valid v) : exec .rFold64 s = .next ((s.writeX0 (foldTo64 v)).goto .rBarrett) :=
  needVectorTier_eq_next.2 ⟨htier, htier0, needFeature_eq_next.2 ⟨hfeat, needX0_eq_next.2 ⟨v, hx, rfl⟩⟩⟩

theorem exec_rBarrett (htier : s.tier ≠ 0b11#2) (htier0 : s.tier ≠ 0b00#2) (hfeat : hasFeature s.straps.platform .narrowLanes = true)
    (hx : s.x.r0 = .valid v) :
    exec .rBarrett s = .next (((s.writeX0 (barrett v)).setCrc (resultLane (barrett v))).goto (afterScalar s.rem)) :=
  needVectorTier_eq_next.2 ⟨htier, htier0, needFeature_eq_next.2 ⟨hfeat, needX0_eq_next.2 ⟨v, hx, rfl⟩⟩⟩

end

/-- Settles O42: both operations complete, `R.BARRETT` on what `R.FOLD64` has left in `X[0]`, and the law on values is what they leave in `CRC`. -/
theorem reductionLaw : Obligations.ReductionLaw := by
  unfold Obligations.ReductionLaw
  intro s v htier htier0 hfeat hx
  have hcrc : resultLane (barrett (foldTo64 v)) = scalar 0 (le16 v) := resultLane_barrett_foldTo64 v
  have hbarrett := exec_rBarrett (s := (s.writeX0 (foldTo64 v)).goto .rBarrett) htier htier0 hfeat rfl
  exact ⟨_, _, exec_rFold64 htier htier0 hfeat hx, hbarrett, hcrc, fun _ hconsumed => hcrc.trans hconsumed⟩

end Sys2Proof.Machine
end

section
/-! PROOFS. Control transfer (46_orchestrator.md rule R193): the table of the next operation as a function, and that every operation puts the code of
that function's value in `OP`. -/

namespace Sys2Proof.Machine

variable {s t : State} {i : Instr}

/-! ### The table as a function -/

/-- The operation that follows `i`, by `TIER` and by `REM` after it. (No row of the table is a multiplier command's.) -/
def nextOp (i : Instr) (tier : BitVec 2) (rem : Nat) : Instr :=
  match i with
  | .update => .probe
  | .probe => afterProbe tier rem
  | .wInit | .wFold4 => afterWideBlock rem
  | .wCollapse | .wFold1 => afterWideLane rem
  | .wHred => .rFold64
  | .nInit4 | .nFold4 => afterNarrowBlock rem
  | .nCollapse | .nInit1 | .nFold1 => afterNarrowLane rem
  | .rFold64 => .rBarrett
  | .rBarrett | .sbyte => afterScalar rem
  | .done => .update
  | m => m

theorem nextOp_format (hi : i.format = .s) (tier : BitVec 2) (r : Nat) : (nextOp i tier r).format = .s := by
  cases i
  case probe => exact afterProbe_format tier r
  case sbyte | rBarrett => exact afterScalar_format r
  case wInit | wFold4 => exact afterWideBlock_format r
  case wCollapse | wFold1 => exact afterWideLane_format r
  case nInit4 | nFold4 => exact afterNarrowBlock_format r
  case nCollapse | nInit1 | nFold1 => exact afterNarrowLane_format r
  case update | done | wHred | rFold64 => rfl
  all_goals contradiction

/-- `select_tier` gives one of its three codes (rule R100). -/
theorem selectTier_cases (p : Config.Straps) (h : U32) (r : Nat) :
    selectTier p h r = tierNone ∨ selectTier p h r = tierNarrow ∨ selectTier p h r = tierWide := by
  unfold selectTier
  split_ifs <;> simp

theorem afterProbe_narrow (r : Nat) : afterProbe tierNarrow r = if r ≥ 128 then .nInit4 else .nInit1 := rfl

/-- The rows of `PROBE`, for the three tiers there are. -/
theorem nextRow_afterProbe {tier : BitVec 2} (htier : tier = tierNone ∨ tier = tierNarrow ∨ tier = tierWide) (r : Nat) :
    NextRow .probe tier r (afterProbe tier r) := by
  obtain rfl | rfl | rfl := htier
  · rw [afterProbe_none, afterScalar]
    split
    · exact .probeSbyte r ‹_›
    · exact .probeDone r (by omega)
  · rw [afterProbe_narrow]
    split
    · exact .probeBulk r ‹_›
    · exact .probeShort r (by omega)
  · exact .probeWide r

/-- The rows of every other operation. -/
theorem nextRow_nextOp (hi : i.format = .s) (hprobe : i ≠ .probe) (tier : BitVec 2) (r : Nat) :
    NextRow i tier r (nextOp i tier r) := by
  cases i
  case probe | clmulLL | clmulHL | clmulLH | clmulHH | vclmulLL | vclmulHL | vclmulLH | vclmulHH => contradiction
  case update | done | wHred | rFold64 => constructor
  all_goals
    simp only [nextOp, afterScalar, afterWideBlock, afterWideLane, afterNarrowBlock, afterNarrowLane]
    split <;> constructor <;> omega

/-! ### Every operation transfers by it -/

/-- Inside a command an operation puts the code of the next one in `OP`, and leaves the buffer and the multiplier's port as they are. -/
theorem exec_next_transfer (hi : i.format = .s) (hinside : endsCommand i = false) (h : exec i s = .next t) :
    t.op = (nextOp i t.tier t.rem).code ∧ t.mem = s.mem ∧ t.mul = s.mul := by
  cases i
  case update | done | clmulLL | clmulHL | clmulLH | clmulHH | vclmulLL | vclmulHL | vclmulLH | vclmulHH => contradiction
  all_goals
    simp only [exec, execProbe, execSbyte, execWInit, execWFold4, execWCollapse, execWFold1, execWHred, execNInit4, execNFold4,
      execNCollapse, execNInit1, execNFold1, execRFold64, execRBarrett, needLegalTier_eq_next, needVectorTier_eq_next,
      needFeature_eq_next, needBytes_eq_next, needX0_eq_next, needZ0_eq_next, needX_eq_next, needZ_eq_next,
      Host.Outcome.next.injEq] at h
  case probe =>
    obtain rfl := h
    exact ⟨rfl, rfl, rfl⟩
  case sbyte =>
    obtain ⟨-, -, -, rfl⟩ := h
    exact ⟨rfl, rfl, rfl⟩
  case wInit | nInit4 | nInit1 =>
    obtain ⟨-, -, -, -, -, rfl⟩ := h
    exact ⟨rfl, rfl, rfl⟩
  case wFold4 | nFold4 =>
    obtain ⟨-, -, -, -, -, _, _, _, _, -, rfl⟩ := h
    exact ⟨rfl, rfl, rfl⟩
  case wFold1 | nFold1 =>
    obtain ⟨-, -, -, -, -, _, -, rfl⟩ := h
    exact ⟨rfl, rfl, rfl⟩
  case wCollapse | nCollapse =>
    obtain ⟨-, -, -, _, _, _, _, -, rfl⟩ := h
    exact ⟨rfl, rfl, rfl⟩
  case wHred =>
    obtain ⟨-, -, -, -, _, -, rfl⟩ := h
    exact ⟨rfl, rfl, rfl⟩
  case rFold64 | rBarrett =>
    obtain ⟨-, -, -, _, -, rfl⟩ := h
    exact ⟨rfl, rfl, rfl⟩

/-- `UPDATE` with no command presented changes nothing. -/
theorem exec_update_next_idle (hhost : s.host = none) (h : exec .update s = .next t) : t = s := by
  simp only [exec, execUpdate, hhost] at h
  split_ifs at h
  exact (Host.Outcome.next.inj h).symm

/-- `DONE` completes only with no byte left, and then delivers (rule R192). -/
theorem exec_done_next (h : exec .done s = .next t) : s.rem = 0 ∧ t = s.delivered := by
  obtain ⟨-, h⟩ := needLegalTier_eq_next.1 h
  split_ifs at h with hrem
  exact ⟨hrem, (Host.Outcome.next.inj h).symm⟩

/-- Every sequencer operation but an idle `UPDATE` follows the table (rule R193). -/
theorem exec_next_row (hi : i.format = .s) (h : exec i s = .next t) :
    (i = .update ∧ s.host = none ∧ t = s) ∨ t.op = (nextOp i t.tier t.rem).code ∧ NextRow i t.tier t.rem (nextOp i t.tier t.rem) := by
  by_cases hprobe : i = .probe
  · subst hprobe
    obtain rfl : s.probed = t := Host.Outcome.next.inj h
    exact .inr ⟨rfl, nextRow_afterProbe (selectTier_cases _ _ _) _⟩
  have hrow := nextRow_nextOp hi hprobe t.tier t.rem
  cases hends : endsCommand i
  case false =>
    obtain ⟨hop, -, -⟩ := exec_next_transfer hi hends h
    exact .inr ⟨hop, hrow⟩
  case true =>
    obtain rfl | rfl : i = .update ∨ i = .done := by simpa [endsCommand] using hends
    · cases hhost : s.host with
      | none => exact .inl ⟨rfl, rfl, exec_update_next_idle hhost h⟩
      | some c =>
        obtain rfl := exec_update_next hhost h
        exact .inr ⟨rfl, hrow⟩
    · obtain ⟨-, rfl⟩ := exec_done_next h
      exact .inr ⟨rfl, hrow⟩

/-- A multiplier command leaves `OP` alone (rule R75). -/
theorem exec_next_op_of_format_m (hi : i.format = .m) (h : exec i s = .next t) : t.op = s.op := by
  cases i
  case clmulLL | clmulHL | clmulLH | clmulHH =>
    obtain ⟨-, rfl⟩ := clmulCommand_eq_next.1 h
    rfl
  case vclmulLL | vclmulHL | vclmulLH | vclmulHH =>
    obtain ⟨-, rfl⟩ := vclmulCommand_eq_next.1 h
    rfl
  all_goals contradiction

/-- Settles O5: the table as a function, and what each operation puts in `OP`; `N.INIT4` leaves at least 64 bytes. -/
theorem nextOperationRelation : Obligations.NextOperationRelation := by
  unfold Obligations.NextOperationRelation
  refine ⟨fun i s t hi h => ?_, fun i s t hi h => exec_next_op_of_format_m hi h, fun s t h => ?_⟩
  · exact (exec_next_row hi h).imp_right fun ⟨hop, hrow⟩ => ⟨_, nextOp_format hi _ _, hop, hrow⟩
  · obtain ⟨hrem, hop, -⟩ := exec_nInit4_next h
    rw [hop, afterNarrowBlock_of_le (by omega)]
    decide

end Sys2Proof.Machine
end

section
/-! PROOFS. Whole lanes in the scalar function (43_wide_fold.md rule R136, 44_narrow_fold.md rule R156): the bytes of a lane read are those of the buffer,
a seed XORed into a lane's first bytes is the incoming CRC, and folding by the length of what is folded in is appending it. -/

namespace Sys2Proof.Machine

/-! ### The bytes of a lane -/

theorem Memory.bytes_eq_map (m : Memory) (a n : Nat) : m.bytes a n = (List.range n).map fun i => m.read (a + i) := by
  induction n with
  | zero => rfl
  | succ n ih =>
    rw [Memory.bytes_add, ih, List.range_succ, List.map_append]
    rfl

/-- The bytes of a narrow lane read from the buffer are the sixteen bytes there. -/
theorem le16_memRead16 (s : State) (a : Nat) : le16 (memRead16 s a) = s.mem.bytes a 16 := by
  rw [Memory.bytes_eq_map]
  exact List.map_congr_left fun i hi => byte_memRead16 s a (List.mem_range.1 hi)

/-- The bytes of a wide lane read from the buffer are the 64 bytes there. -/
theorem le64_memRead64 (s : State) (a : Nat) : le64 (memRead64 s a) = s.mem.bytes a 64 := by
  rw [Memory.bytes_eq_map]
  exact List.map_congr_left fun i hi => byte_memRead64 s a (List.mem_range.1 hi)

/-- Four pieces of the buffer that follow each other are one. -/
theorem Memory.bytes_four (m : Memory) (a n : Nat) :
    m.bytes a n ++ m.bytes (a + n) n ++ m.bytes (a + 2 * n) n ++ m.bytes (a + 3 * n) n = m.bytes a (4 * n) := by
  have hn : 4 * n = n + n + n + n := by omega
  have hpieces : a + (n + n) = a + 2 * n ∧ a + (n + n + n) = a + 3 * n := by omega
  rw [hn, Memory.bytes_add, Memory.bytes_add, Memory.bytes_add, hpieces.1, hpieces.2]

theorem le16_lane (v : U512) (j : Nat) : le16 (lane v j) = (List.range 16).map fun i => v.extractLsb' (8 * (16 * j + i)) 8 := by
  refine List.map_congr_left fun i hi => BitVec.eq_of_getLsbD_eq fun k hk => ?_
  have hbyte := List.mem_range.1 hi
  have hplace : 8 * i + k < 128 ∧ 128 * j + (8 * i + k) = 8 * (16 * j + i) + k := by omega
  simp only [lane, BitVec.getLsbD_extractLsb', hplace, decide_true, Bool.true_and]

/-- The bytes of a wide value are those of its sub-lanes in order (rule R7). -/
theorem le64_eq_lanes (v : U512) : le64 v = le16 (lane v 0) ++ le16 (lane v 1) ++ le16 (lane v 2) ++ le16 (lane v 3) := by
  simp only [le16_lane]
  rfl

/-! ### The seed (rule R93 (c)) -/

/-- The CRC of a seed in the first four of `n` bytes is that of the seed before `n` zero bytes. -/
theorem scalar_leBytes_seed {w n : Nat} (hw : 32 ≤ w) (hn : 4 ≤ n) (c : U32) :
    scalar 0 (leBytes n (c.setWidth w)) = bitSteps (8 * n) c := by
  refine ((xorLinear_scalar_leBytes n).comp xorLinear_setWidth).eq_of_twoPow (xorLinear_bitSteps _) (fun i hi => ?_) c
  have hword : (BitVec.twoPow 32 i).setWidth w = BitVec.twoPow w i := by
    simpa using setWidth_twoPow_shiftLeft (w' := w) (n := 0) hi (by omega)
  rw [hword, scalar_leBytes_twoPow (by omega), if_pos (by omega), bitSteps_twoPow hi (by omega)]

/-- A seed XORed into the first bytes of a word is the incoming CRC. -/
theorem scalar_leBytes_xor_seed {w n : Nat} (hw : 32 ≤ w) (hn : 4 ≤ n) (v : BitVec w) (c : U32) :
    scalar 0 (leBytes n (v ^^^ c.setWidth w)) = scalar c (leBytes n v) := by
  have hsplit : scalar 0 (leBytes n (v ^^^ c.setWidth w)) = scalar 0 (leBytes n v) ^^^ scalar 0 (leBytes n (c.setWidth w)) :=
    xorLinear_scalar_leBytes n v _
  rw [hsplit, scalar_leBytes_seed hw hn, BitVec.xor_comm, scalar_eq_xor c, leBytes_length]

theorem scalar_le16_xor_seed (v : U128) (c : U32) : scalar 0 (le16 (v ^^^ c.setWidth 128)) = scalar c (le16 v) :=
  scalar_leBytes_xor_seed (by decide) (by decide) v c

theorem scalar_le64_xor_seed (v : U512) (c : U32) : scalar 0 (le64 (v ^^^ c.setWidth 512)) = scalar c (le64 v) :=
  scalar_leBytes_xor_seed (by decide) (by decide) v c

/-! ### Folding as appending (rule R124) -/

/-- `new` stands for `old` moved on by `d` bits, with `data` added: what a fold by `d` bits makes of the bytes of its lanes. -/
def FoldsTo (d : Nat) (old data new : List U8) : Prop :=
  old.length = data.length ∧ new.length = data.length ∧ scalar 0 new = bitSteps d (scalar 0 old) ^^^ scalar 0 data

section
variable {d : Nat} {old data new old' data' new' : List U8}

/-- Lanes folded by one distance are folded together. -/
theorem FoldsTo.append (h : FoldsTo d old data new) (h' : FoldsTo d old' data' new') :
    FoldsTo d (old ++ old') (data ++ data') (new ++ new') := by
  obtain ⟨hold, hnew, hcrc⟩ := h
  obtain ⟨hold', hnew', hcrc'⟩ := h'
  refine ⟨by simp [hold, hold'], by simp [hnew, hnew'], ?_⟩
  rw [scalar_append, scalar_append, scalar_append, scalar_eq_xor _ new', scalar_eq_xor _ old', scalar_eq_xor _ data', hcrc, hcrc', hnew',
    hold', bitSteps_xor, bitSteps_xor, ← bitSteps_add, ← bitSteps_add, Nat.add_comm]
  ac_rfl

/-- Folded by the length of the data, `new` stands for `old` and then the data. -/
theorem FoldsTo.scalar_eq (h : FoldsTo d old data new) (hd : d = 8 * data.length) : scalar 0 new = scalar (scalar 0 old) data := by
  obtain ⟨-, -, hcrc⟩ := h
  rw [hcrc, hd, ← scalar_eq_xor]

end

section
variable {d : Nat} {k : U128}

theorem foldsTo_le16 (hk : k = foldPair d) (hd : 32 ≤ d) (a v : U128) : FoldsTo d (le16 a) (le16 v) (le16 (fold128 a v k)) :=
  ⟨by simp [le16], by simp [le16], hk ▸ laneCrc_fold128_foldPair a v hd⟩

theorem foldsTo_le64 (hk : k = foldPair d) (hd : 32 ≤ d) (a v : U512) : FoldsTo d (le64 a) (le64 v) (le64 (fold512 a v k)) := by
  have hlane (j : Nat) (hj : j < 4) : FoldsTo d (le16 (lane a j)) (le16 (lane v j)) (le16 (lane (fold512 a v k) j)) := by
    rw [fold512IsFold128PerLane a v k j hj]
    exact foldsTo_le16 hk hd _ _
  simp only [le64_eq_lanes]
  exact (((hlane 0 (by decide)).append (hlane 1 (by decide))).append (hlane 2 (by decide))).append (hlane 3 (by decide))

end

/-- Folding one narrow lane by `ROM[2]`. -/
theorem scalar_le16_fold128 (a v : U128) : scalar 0 (le16 (fold128 a v (rom 2))) = scalar (scalar 0 (le16 a)) (le16 v) :=
  (foldsTo_le16 rom_two_eq (by decide) a v).scalar_eq rfl

/-- Folding one wide lane by `ROM[1]`. -/
theorem scalar_le64_fold512 (a v : U512) : scalar 0 (le64 (fold512 a v (rom 1))) = scalar (scalar 0 (le64 a)) (le64 v) :=
  (foldsTo_le64 rom_one_eq (by decide) a v).scalar_eq rfl

end Sys2Proof.Machine
end

section
/-! PROOFS. What the accumulators stand for (43_wide_fold.md rule R136, 44_narrow_fold.md rule R156): the model's `StandsFor`, read at the operation that
is due, and that every operation inside a command keeps it. -/

namespace Sys2Proof.Machine

variable {s t : State} {i : Instr} {crcIn : U32}

/-! ### `StandsFor`, read at the operation that is due -/

/-- What `StandsFor` says of a state in which `i` is due. -/
def StandsAt (crcIn : U32) (i : Instr) (s : State) : Prop :=
  match i with
  | .probe | .wInit | .nInit4 | .nInit1 => s.pos = 0 ∧ s.crc = crcIn
  | .wFold4 | .wCollapse => scalar 0 (wideBytes s.z) = consumedCrc crcIn s ∧ s.crc = crcIn
  | .wFold1 | .wHred => scalar 0 s.z.r0.bytes64 = consumedCrc crcIn s ∧ s.crc = crcIn
  | .nFold4 | .nCollapse => scalar 0 (narrowBytes s.x) = consumedCrc crcIn s ∧ s.crc = crcIn
  | .nFold1 | .rFold64 => scalar 0 s.x.r0.bytes16 = consumedCrc crcIn s ∧ s.crc = crcIn
  | .rBarrett => s.x.r0.reduced = consumedCrc crcIn s ∧ s.crc = crcIn
  | .sbyte | .done => s.crc = consumedCrc crcIn s
  | _ => True

/-- `OP` is one of the operations listed exactly when the one it names is. -/
theorem opIn_iff {l : List Instr} (hop : s.op = i.code) (hi : i.format = .s) (hl : ∀ j ∈ l, j.format = .s) : opIn s l ↔ i ∈ l := by
  rw [opIn, hop, List.mem_map]
  exact ⟨fun ⟨j, hj, hcode⟩ => code_injective (hl j hj) hi hcode ▸ hj, fun h => ⟨i, h, rfl⟩⟩

theorem standsFor_iff_standsAt (hop : s.op = i.code) (hi : i.format = .s) : StandsFor crcIn s ↔ StandsAt crcIn i s := by
  have hmem {l : List Instr} (hl : ∀ j ∈ l, j.format = .s) : opIn s l ↔ i ∈ l := opIn_iff hop hi hl
  rw [StandsFor, hmem (by decide), hmem (by decide), hmem (by decide), hmem (by decide), hmem (by decide), hmem (by decide),
    hmem (by decide), hmem (by decide)]
  cases i
  case clmulLL | clmulHL | clmulLH | clmulHH | vclmulLL | vclmulHL | vclmulLH | vclmulHH => contradiction
  all_goals simp [StandsAt]

/-! Each choice of a next operation is between two of which `StandsFor` says the same. -/

theorem standsAt_afterWideBlock {r : Nat} :
    StandsAt crcIn (afterWideBlock r) s ↔ scalar 0 (wideBytes s.z) = consumedCrc crcIn s ∧ s.crc = crcIn := by
  unfold afterWideBlock; split <;> rfl

theorem standsAt_afterWideLane {r : Nat} :
    StandsAt crcIn (afterWideLane r) s ↔ scalar 0 s.z.r0.bytes64 = consumedCrc crcIn s ∧ s.crc = crcIn := by
  unfold afterWideLane; split <;> rfl

theorem standsAt_afterNarrowBlock {r : Nat} :
    StandsAt crcIn (afterNarrowBlock r) s ↔ scalar 0 (narrowBytes s.x) = consumedCrc crcIn s ∧ s.crc = crcIn := by
  unfold afterNarrowBlock; split <;> rfl

theorem standsAt_afterNarrowLane {r : Nat} :
    StandsAt crcIn (afterNarrowLane r) s ↔ scalar 0 s.x.r0.bytes16 = consumedCrc crcIn s ∧ s.crc = crcIn := by
  unfold afterNarrowLane; split <;> rfl

theorem standsAt_afterScalar {r : Nat} : StandsAt crcIn (afterScalar r) s ↔ s.crc = consumedCrc crcIn s := by
  unfold afterScalar; split <;> rfl

/-! ### What has been consumed -/

theorem consumedCrc_of_pos_zero (hpos : s.pos = 0) : consumedCrc crcIn s = crcIn := by
  rw [consumedCrc, hpos]
  rfl

/-- With the operation's cursor move (rule R24), what has been consumed after it. -/
theorem consumedCrc_of_exec (hi : i.format = .s) (hends : endsCommand i = false) (h : exec i s = .next t) :
    consumedCrc crcIn t = scalar (consumedCrc crcIn s) (s.mem.bytes s.pos (bytesRead i)) := by
  obtain ⟨-, hmem, -⟩ := exec_next_transfer hi hends h
  obtain ⟨-, ⟨-, hpos, -, -⟩, -⟩ := exec_next_inside hends h
  rw [consumedCrc, consumedCrc, hmem, hpos, Memory.bytes_add, scalar_append, Nat.zero_add]

/-- What `PROBE` dispatches to starts from the incoming value, with nothing consumed. -/
theorem standsAt_afterProbe {tier : BitVec 2} {r : Nat} (hs : s.pos = 0 ∧ s.crc = crcIn) : StandsAt crcIn (afterProbe tier r) s := by
  obtain ⟨hpos, hcrc⟩ := hs
  have hscalar : s.crc = consumedCrc crcIn s := by rw [consumedCrc_of_pos_zero hpos, hcrc]
  unfold afterProbe
  split_ifs
  · exact hscalar
  · exact hscalar
  all_goals exact ⟨hpos, hcrc⟩

/-! ### What the operations make of the accumulators -/

/-- `W.INIT` (rule R131). -/
theorem scalar_wideBytes_init (s : State) (a : Nat) (c : U32) :
    scalar 0 (wideBytes ⟨.valid (memRead64 s a ^^^ c.setWidth 512), .valid (memRead64 s (a + 64)), .valid (memRead64 s (a + 128)),
      .valid (memRead64 s (a + 192))⟩) = scalar c (s.mem.bytes a 256) := by
  simp only [wideBytes, Acc.bytes64, scalar_append, scalar_le64_xor_seed]
  rw [← s.mem.bytes_four a 64]
  simp only [scalar_append, le64_memRead64, Nat.reduceMul]

/-- `W.FOLD4` (rule R132). -/
theorem scalar_wideBytes_fold (s : State) (a : Nat) (z0 z1 z2 z3 : U512) :
    scalar 0 (wideBytes ⟨.valid (fold512 z0 (memRead64 s a) (rom 0)), .valid (fold512 z1 (memRead64 s (a + 64)) (rom 0)),
      .valid (fold512 z2 (memRead64 s (a + 128)) (rom 0)), .valid (fold512 z3 (memRead64 s (a + 192)) (rom 0))⟩) =
      scalar (scalar 0 (wideBytes ⟨.valid z0, .valid z1, .valid z2, .valid z3⟩)) (s.mem.bytes a 256) := by
  have hlane (z v : U512) : FoldsTo 2048 (le64 z) (le64 v) (le64 (fold512 z v (rom 0))) := foldsTo_le64 rom_zero_eq (by decide) z v
  have hfold := (((hlane z0 (memRead64 s a)).append (hlane z1 (memRead64 s (a + 64)))).append (hlane z2 (memRead64 s (a + 128)))).append
    (hlane z3 (memRead64 s (a + 192)))
  simp only [le64_memRead64] at hfold
  rw [s.mem.bytes_four a 64] at hfold
  exact hfold.scalar_eq (by rw [Memory.bytes_length])

/-- `W.COLLAPSE` (rule R133). -/
theorem scalar_le64_collapse (z0 z1 z2 z3 : U512) :
    scalar 0 (le64 (fold512 (fold512 (fold512 z0 z1 (rom 1)) z2 (rom 1)) z3 (rom 1))) =
      scalar 0 (wideBytes ⟨.valid z0, .valid z1, .valid z2, .valid z3⟩) := by
  simp only [wideBytes, Acc.bytes64, scalar_append, scalar_le64_fold512]

/-- `W.HRED` (rule R135). -/
theorem scalar_le16_hred (z : U512) :
    scalar 0 (le16 (fold128 (fold128 (fold128 (lane z 0) (lane z 1) (rom 2)) (lane z 2) (rom 2)) (lane z 3) (rom 2))) =
      scalar 0 (le64 z) := by
  simp only [le64_eq_lanes, scalar_append, scalar_le16_fold128]

/-- `N.INIT4` (rule R151). -/
theorem scalar_narrowBytes_init (s : State) (a : Nat) (c : U32) :
    scalar 0 (narrowBytes ⟨.valid (memRead16 s a ^^^ c.setWidth 128), .valid (memRead16 s (a + 16)), .valid (memRead16 s (a + 32)),
      .valid (memRead16 s (a + 48))⟩) = scalar c (s.mem.bytes a 64) := by
  simp only [narrowBytes, Acc.bytes16, scalar_append, scalar_le16_xor_seed]
  rw [← s.mem.bytes_four a 16]
  simp only [scalar_append, le16_memRead16, Nat.reduceMul]

/-- `N.FOLD4` (rule R152). -/
theorem scalar_narrowBytes_fold (s : State) (a : Nat) (x0 x1 x2 x3 : U128) :
    scalar 0 (narrowBytes ⟨.valid (fold128 x0 (memRead16 s a) (rom 1)), .valid (fold128 x1 (memRead16 s (a + 16)) (rom 1)),
      .valid (fold128 x2 (memRead16 s (a + 32)) (rom 1)), .valid (fold128 x3 (memRead16 s (a + 48)) (rom 1))⟩) =
      scalar (scalar 0 (narrowBytes ⟨.valid x0, .valid x1, .valid x2, .valid x3⟩)) (s.mem.bytes a 64) := by
  have hlane (x v : U128) : FoldsTo 512 (le16 x) (le16 v) (le16 (fold128 x v (rom 1))) := foldsTo_le16 rom_one_eq (by decide) x v
  have hfold := (((hlane x0 (memRead16 s a)).append (hlane x1 (memRead16 s (a + 16)))).append (hlane x2 (memRead16 s (a + 32)))).append
    (hlane x3 (memRead16 s (a + 48)))
  simp only [le16_memRead16] at hfold
  rw [s.mem.bytes_four a 16] at hfold
  exact hfold.scalar_eq (by rw [Memory.bytes_length])

/-- `N.COLLAPSE` (rule R153). -/
theorem scalar_le16_collapse (x0 x1 x2 x3 : U128) :
    scalar 0 (le16 (fold128 (fold128 (fold128 x0 x1 (rom 2)) x2 (rom 2)) x3 (rom 2))) =
      scalar 0 (narrowBytes ⟨.valid x0, .valid x1, .valid x2, .valid x3⟩) := by
  simp only [narrowBytes, Acc.bytes16, scalar_append, scalar_le16_fold128]

/-! ### Every operation inside a command keeps it -/

/-- The cases are the operations; each takes what is due before it to what is due before the next one, by what it makes of the accumulators. -/
theorem exec_next_standsAt (hi : i.format = .s) (hends : endsCommand i = false) (hs : StandsAt crcIn i s) (h : exec i s = .next t) :
    StandsAt crcIn (nextOp i t.tier t.rem) t := by
  have hconsumed : consumedCrc crcIn t = _ := consumedCrc_of_exec hi hends h
  cases i
  case update | done | clmulLL | clmulHL | clmulLH | clmulHH | vclmulLL | vclmulHL | vclmulLH | vclmulHH => contradiction
  all_goals
    simp only [exec, execProbe, execSbyte, execWInit, execWFold4, execWCollapse, execWFold1, execWHred, execNInit4, execNFold4,
      execNCollapse, execNInit1, execNFold1, execRFold64, execRBarrett, needLegalTier_eq_next, needVectorTier_eq_next,
      needFeature_eq_next, needBytes_eq_next, needX0_eq_next, needZ0_eq_next, needX_eq_next, needZ_eq_next,
      Host.Outcome.next.injEq] at h
    simp only [bytesRead] at hconsumed
  case probe =>
    obtain rfl := h
    exact standsAt_afterProbe hs
  case sbyte =>
    obtain ⟨-, -, -, rfl⟩ := h
    have hcrc : s.crc = consumedCrc crcIn s := hs
    rw [nextOp, standsAt_afterScalar, hconsumed, ← hcrc, State.goto_crc, State.advance_crc, State.setCrc_crc, memRead1_eq_read]
    rfl
  case wInit =>
    obtain ⟨hpos, rfl⟩ := hs
    obtain ⟨-, -, -, -, -, rfl⟩ := h
    rw [nextOp, standsAt_afterWideBlock, hconsumed, consumedCrc_of_pos_zero hpos]
    exact ⟨scalar_wideBytes_init s s.pos s.crc, rfl⟩
  case wFold4 =>
    obtain ⟨hacc, hcrc⟩ := hs
    obtain ⟨-, -, -, -, -, z0, z1, z2, z3, hz, rfl⟩ := h
    rw [nextOp, standsAt_afterWideBlock, hconsumed, ← hacc, hz]
    exact ⟨scalar_wideBytes_fold s s.pos z0 z1 z2 z3, hcrc⟩
  case wCollapse =>
    obtain ⟨hacc, hcrc⟩ := hs
    obtain ⟨-, -, -, z0, z1, z2, z3, hz, rfl⟩ := h
    rw [nextOp, standsAt_afterWideLane, hconsumed, Memory.bytes, scalar, ← hacc, hz]
    exact ⟨scalar_le64_collapse z0 z1 z2 z3, hcrc⟩
  case wFold1 =>
    obtain ⟨hacc, hcrc⟩ := hs
    obtain ⟨-, -, -, -, -, z0, hz, rfl⟩ := h
    rw [nextOp, standsAt_afterWideLane, hconsumed, ← hacc, hz, ← le64_memRead64]
    exact ⟨scalar_le64_fold512 z0 _, hcrc⟩
  case wHred =>
    obtain ⟨hacc, hcrc⟩ := hs
    obtain ⟨-, -, -, -, z0, hz, rfl⟩ := h
    refine ⟨?_, hcrc⟩
    rw [hconsumed, Memory.bytes, scalar, ← hacc, hz]
    exact scalar_le16_hred z0
  case nInit4 =>
    obtain ⟨hpos, rfl⟩ := hs
    obtain ⟨-, -, -, -, -, rfl⟩ := h
    rw [nextOp, standsAt_afterNarrowBlock, hconsumed, consumedCrc_of_pos_zero hpos]
    exact ⟨scalar_narrowBytes_init s s.pos s.crc, rfl⟩
  case nFold4 =>
    obtain ⟨hacc, hcrc⟩ := hs
    obtain ⟨-, -, -, -, -, x0, x1, x2, x3, hx, rfl⟩ := h
    rw [nextOp, standsAt_afterNarrowBlock, hconsumed, ← hacc, hx]
    exact ⟨scalar_narrowBytes_fold s s.pos x0 x1 x2 x3, hcrc⟩
  case nCollapse =>
    obtain ⟨hacc, hcrc⟩ := hs
    obtain ⟨-, -, -, x0, x1, x2, x3, hx, rfl⟩ := h
    rw [nextOp, standsAt_afterNarrowLane, hconsumed, Memory.bytes, scalar, ← hacc, hx]
    exact ⟨scalar_le16_collapse x0 x1 x2 x3, hcrc⟩
  case nInit1 =>
    obtain ⟨hpos, rfl⟩ := hs
    obtain ⟨-, -, -, -, -, rfl⟩ := h
    rw [nextOp, standsAt_afterNarrowLane, hconsumed, consumedCrc_of_pos_zero hpos, ← le16_memRead16]
    exact ⟨scalar_le16_xor_seed _ _, rfl⟩
  case nFold1 =>
    obtain ⟨hacc, hcrc⟩ := hs
    obtain ⟨-, -, -, -, -, x0, hx, rfl⟩ := h
    rw [nextOp, standsAt_afterNarrowLane, hconsumed, ← hacc, hx, ← le16_memRead16]
    exact ⟨scalar_le16_fold128 x0 _, hcrc⟩
  case rFold64 =>
    obtain ⟨hacc, hcrc⟩ := hs
    obtain ⟨-, -, -, x0, hx, rfl⟩ := h
    refine ⟨?_, hcrc⟩
    rw [hconsumed, Memory.bytes, scalar, ← hacc, hx]
    exact resultLane_barrett_foldTo64 x0
  case rBarrett =>
    obtain ⟨hacc, -⟩ := hs
    obtain ⟨-, -, -, x0, hx, rfl⟩ := h
    rw [nextOp, standsAt_afterScalar, hconsumed, Memory.bytes, scalar, ← hacc, hx]
    rfl

/-- `StandsFor` is kept by every operation inside a command, whatever tier, straps and platform it runs under. -/
theorem exec_next_standsFor (hop : s.op = i.code) (hi : i.format = .s) (hends : endsCommand i = false) (hs : StandsFor crcIn s)
    (h : exec i s = .next t) : StandsFor crcIn t := by
  obtain ⟨hnext, -, -⟩ := exec_next_transfer hi hends h
  rw [standsFor_iff_standsAt hop hi] at hs
  rw [standsFor_iff_standsAt hnext (nextOp_format hi _ _)]
  exact exec_next_standsAt hi hends hs h

end Sys2Proof.Machine
end

section
/-! PROOFS. Whole commands (46_orchestrator.md rules R195, R196, R202): how many operations are left is a function of the operation due and of `REM`; a run of that
many ends with `DONE`, which delivers what `StandsFor` says `CRC` stands for. -/

namespace Sys2Proof.Machine

variable {s t : State} {i : Instr} {crcIn : U32}

/-! ### How many operations are left -/

/-- How many operations of a command are left when `i`, one that runs after `PROBE`, is due with `rem` bytes left: the table of rule R202 from `i` on. -/
def opsLeft (i : Instr) (rem : Nat) : Nat :=
  match i with
  | .wInit | .wFold4 => rem / 256 + rem % 256 / 64 + rem % 64 + 5
  | .wCollapse => rem / 64 + rem % 64 + 5
  | .wFold1 => rem / 64 + rem % 64 + 4
  | .wHred => rem + 4
  | .nInit4 | .nFold4 => rem / 64 + rem % 64 / 16 + rem % 16 + 4
  | .nCollapse => rem / 16 + rem % 16 + 4
  | .nInit1 | .nFold1 => rem / 16 + rem % 16 + 3
  | .rFold64 => rem + 3
  | .rBarrett => rem + 2
  | .sbyte => rem + 1
  | .done => 1
  | _ => 0

/-- Each operation is one of those left. -/
theorem opsLeft_nextOp (hi : runsAfterProbe i = true) (hdone : i ≠ .done) (tier : BitVec 2) (r : Nat) :
    opsLeft i (r + bytesRead i) = opsLeft (nextOp i tier r) r + 1 := by
  cases i
  case update | probe | done | clmulLL | clmulHL | clmulLH | clmulHH | vclmulLL | vclmulHL | vclmulLH | vclmulHH => contradiction
  case wHred | rFold64 => rfl
  all_goals
    simp only [nextOp, afterScalar, afterWideBlock, afterWideLane, afterNarrowBlock, afterNarrowLane]
    split <;> simp only [opsLeft, bytesRead] <;> omega

theorem opsLeft_pos (hi : runsAfterProbe i = true) (r : Nat) : 0 < opsLeft i r := by
  cases i
  case update | probe | clmulLL | clmulHL | clmulLH | clmulHH | vclmulLL | vclmulHL | vclmulLH | vclmulHH => contradiction
  all_goals exact Nat.succ_pos _

/-- Either value of the strap holds a wide block. -/
theorem le_wideMinBytes (m : Config.WideMin) : 256 ≤ wideMinBytes m := by
  cases m <;> decide

theorem runsAfterProbe_nextOp (hi : runsAfterProbe i = true) (hdone : i ≠ .done) (tier : BitVec 2) (r : Nat) :
    runsAfterProbe (nextOp i tier r) = true := by
  cases i
  case update | probe | done | clmulLL | clmulHL | clmulLH | clmulHH | vclmulLL | vclmulHL | vclmulLH | vclmulHH => contradiction
  case wHred | rFold64 => rfl
  all_goals
    simp only [nextOp, afterScalar, afterWideBlock, afterWideLane, afterNarrowBlock, afterNarrowLane]
    split <;> rfl

theorem runsAfterProbe_afterProbe (tier : BitVec 2) (r : Nat) : runsAfterProbe (afterProbe tier r) = true := by
  unfold afterProbe
  split_ifs <;> rfl

theorem format_of_runsAfterProbe (hi : runsAfterProbe i = true) : i.format = .s := by
  cases i
  case clmulLL | clmulHL | clmulLH | clmulHH | vclmulLL | vclmulHL | vclmulLH | vclmulHH => contradiction
  all_goals rfl

theorem endsCommand_of_runsAfterProbe (hi : runsAfterProbe i = true) (hdone : i ≠ .done) : endsCommand i = false :=
  endsCommand_eq_false_iff.2 ⟨by rintro rfl; contradiction, hdone⟩

/-- The table of rule R202 counted: `UPDATE`, `PROBE` and what is left after them, where the bytes are enough for the tier. -/
theorem operationCount_eq_opsLeft {tier : BitVec 2} {n : Nat} (hvector : tier ≠ tierNone → 16 ≤ n) (hwide : tier = tierWide → 256 ≤ n) :
    operationCount tier n = opsLeft (afterProbe tier n) n + 2 := by
  by_cases hnone : tier = tierNone
  · subst hnone
    rw [operationCount_none, afterProbe_none, afterScalar]
    split <;> simp only [opsLeft]
    omega
  have hlane := hvector hnone
  rw [operationCount, operationSequence, if_neg hnone, afterProbe, if_neg hnone]
  by_cases hw : tier = tierWide
  · have hblock := hwide hw
    rw [if_pos hw, if_pos hw]
    simp only [List.length_append, List.length_cons, List.length_nil, List.length_replicate, opsLeft]
    omega
  · rw [if_neg hw, if_neg hw, narrowBulkMin]
    rcases Nat.lt_or_ge n 128 with hshort | hbulk
    · rw [if_pos hshort, if_neg (Nat.not_le.2 hshort)]
      simp only [List.length_append, List.length_cons, List.length_nil, List.length_replicate, opsLeft]
      omega
    · rw [if_neg (Nat.not_lt.2 hbulk), if_pos hbulk]
      simp only [List.length_append, List.length_cons, List.length_nil, List.length_replicate, opsLeft]
      omega

/-! ### Runs -/

theorem run_succ_eq_next {n : Nat} : core.run (n + 1) s = .next t ↔ ∃ u, step s = .next u ∧ core.run n u = .next t := by
  have hcore : core.step s = step s := rfl
  simp only [Host.Core.run, hcore]
  cases step s <;> simp

/-- With an empty port a step that goes on is the operation whose code `OP` holds. -/
theorem exec_of_step (hop : s.op = i.code) (hi : i.format = .s) (hport : s.mul.word = none) (h : step s = .next t) : exec i s = .next t := by
  rw [step_of_none hport, runOperation_eq_next] at h
  obtain ⟨j, hj, hexec⟩ := h
  rw [hop, decodeS_code hi] at hj
  exact Except.ok.inj hj ▸ hexec

/-- From any point after `PROBE` on, a run of the operations left delivers the CRC of the whole buffer. -/
theorem crcOut_of_run (hi : runsAfterProbe i = true) (hop : s.op = i.code) (hport : s.mul.word = none) (hcursor : CursorOk s)
    (hs : StandsFor crcIn s) (h : core.run (opsLeft i s.rem) s = .next t) : t.crcOut = scalar crcIn (s.mem.bytes 0 s.len) := by
  induction hn : opsLeft i s.rem generalizing i s with
  | zero => exact absurd hn (opsLeft_pos hi s.rem).ne'
  | succ n ih =>
    have hformat := format_of_runsAfterProbe hi
    rw [hn] at h
    obtain ⟨u, hstep, hrun⟩ := run_succ_eq_next.1 h
    have hexec := exec_of_step hop hformat hport hstep
    by_cases hdone : i = .done
    · subst hdone
      obtain rfl : 0 = n := Nat.succ.inj hn
      obtain rfl : u = t := Host.Outcome.next.inj hrun
      obtain ⟨hrem, rfl⟩ := exec_done_next hexec
      have hpos : s.pos = s.len := by rw [← hcursor, hrem, Nat.add_zero]
      have hcrc : s.crc = consumedCrc crcIn s := (standsFor_iff_standsAt hop hformat).1 hs
      rw [State.delivered_crcOut, hcrc, consumedCrc, hpos]
    · have hends := endsCommand_of_runsAfterProbe hi hdone
      obtain ⟨hnext, hmem, hmul⟩ := exec_next_transfer hformat hends hexec
      obtain ⟨-, ⟨hread, hpos, hrem, hlen⟩, -⟩ := exec_next_inside hends hexec
      have hcursor' : CursorOk u := by rw [CursorOk, hpos, hrem, hlen, ← hcursor]; omega
      have hleft : opsLeft (nextOp i u.tier u.rem) u.rem = n := by
        have h := opsLeft_nextOp hi hdone u.tier u.rem
        rw [hrem, Nat.sub_add_cancel hread, hn, ← hrem] at h
        exact (Nat.succ.inj h).symm
      rw [← hmem, ← hlen]
      exact ih (runsAfterProbe_nextOp hi hdone _ _) hnext (hmul ▸ hport) hcursor' (exec_next_standsFor hop hformat hends hs hexec)
        (hleft ▸ hrun) hleft

/-- A command whose every operation completes delivers the scalar CRC of its buffer (the contract, rule R195). -/
theorem crcOut_of_commandEndsIn {c : Command} (hready : CommandReady s c) (hends : CommandEndsIn s c t) :
    t.crcOut = scalar c.crcIn (s.mem.bytes 0 c.len) := by
  obtain ⟨hop, hport, hhost, -, -⟩ := hready
  have hcount : operationCount (commandTier s c) c.len = _ := operationCount_eq_opsLeft
    (fun hne => (sixteen_le_minVecBytes _).trans (minVecBytes_le_of_selectTier_ne_none hne))
    (fun hwide => (le_wideMinBytes _).trans (wideMinBytes_le_of_selectTier_eq_wide hwide))
  rw [CommandEndsIn, hcount] at hends
  obtain ⟨u, hupdate, hends⟩ := run_succ_eq_next.1 hends
  obtain rfl := exec_update_next hhost (exec_of_step hop rfl hport hupdate)
  obtain ⟨v, hprobe, hrun⟩ := run_succ_eq_next.1 hends
  have hexec : exec .probe (s.accept c) = .next v := exec_of_step rfl rfl hport hprobe
  have haccepted : StandsFor c.crcIn (s.accept c) := (standsFor_iff_standsAt (i := .probe) rfl rfl).2 ⟨rfl, rfl⟩
  have hprobed : StandsFor c.crcIn v := exec_next_standsFor rfl rfl rfl haccepted hexec
  obtain rfl : (s.accept c).probed = v := Host.Outcome.next.inj hexec
  exact crcOut_of_run (s := (s.accept c).probed) (runsAfterProbe_afterProbe (commandTier s c) c.len) rfl hport (Nat.zero_add c.len) hprobed hrun

/-- Settles O57: each command delivers the scalar CRC of its bytes, and that of a string in two parts is that of the second from that of the first. -/
theorem splittingInvariance : Obligations.SplittingInvariance := by
  unfold Obligations.SplittingInvariance
  intro s1 s2 s t1 t2 t c1 c2 c hready1 hready2 hready hends1 hends2 hends hseed hcarry hbytes
  calc t2.crcOut
      = scalar c2.crcIn (s2.mem.bytes 0 c2.len) := crcOut_of_commandEndsIn hready2 hends2
    _ = scalar (scalar c1.crcIn (s1.mem.bytes 0 c1.len)) (s2.mem.bytes 0 c2.len) := by
        rw [hcarry, crcOut_of_commandEndsIn hready1 hends1]
    _ = scalar c.crcIn (s.mem.bytes 0 c.len) := by rw [hseed, hbytes, scalar_append]
    _ = t.crcOut := (crcOut_of_commandEndsIn hready hends).symm

end Sys2Proof.Machine
end

section
/-! PROOFS. Every operation as tests and an effect: the tests in the order of log entry 8, written once for all operations by the tables of
Safety.lean, and the state the operation leaves where they hold.  When an operation completes, what it changes and under which name it stops
follow from the two. -/

namespace Sys2Proof.Machine

variable {s t : State} {i : Instr} {k : Result State}

/-! ### The effect -/

/-- The value of an accumulator; of an unwritten one no effect is used. -/
def Acc.value {w : Nat} : Acc w → BitVec w
  | .valid v => v
  | .unwritten => 0

/-- The next state of an operation that completes. -/
def effect (i : Instr) (s : State) : State :=
  match i with
  | .update => s.host.elim s s.accept
  | .probe => s.probed
  | .sbyte => s.consumeBytes 1
  | .done => s.delivered
  | .wInit => ((s.writeZ (memRead64 s s.pos ^^^ s.crc.setWidth 512) (memRead64 s (s.pos + 64)) (memRead64 s (s.pos + 128))
      (memRead64 s (s.pos + 192))).advance 256).goto (afterWideBlock (s.rem - 256))
  | .wFold4 => ((s.writeZ (fold512 s.z.r0.value (memRead64 s s.pos) (rom 0)) (fold512 s.z.r1.value (memRead64 s (s.pos + 64)) (rom 0))
      (fold512 s.z.r2.value (memRead64 s (s.pos + 128)) (rom 0)) (fold512 s.z.r3.value (memRead64 s (s.pos + 192)) (rom 0))).advance
        256).goto (afterWideBlock (s.rem - 256))
  | .wCollapse => (s.writeZ0 (fold512 (fold512 (fold512 s.z.r0.value s.z.r1.value (rom 1)) s.z.r2.value (rom 1)) s.z.r3.value
      (rom 1))).goto (afterWideLane s.rem)
  | .wFold1 => ((s.writeZ0 (fold512 s.z.r0.value (memRead64 s s.pos) (rom 1))).advance 64).goto (afterWideLane (s.rem - 64))
  | .wHred => (s.writeX0 (fold128 (fold128 (fold128 (lane s.z.r0.value 0) (lane s.z.r0.value 1) (rom 2)) (lane s.z.r0.value 2)
      (rom 2)) (lane s.z.r0.value 3) (rom 2))).goto .rFold64
  | .nInit4 => ((s.writeX (memRead16 s s.pos ^^^ s.crc.setWidth 128) (memRead16 s (s.pos + 16)) (memRead16 s (s.pos + 32))
      (memRead16 s (s.pos + 48))).advance 64).goto (afterNarrowBlock (s.rem - 64))
  | .nFold4 => ((s.writeX (fold128 s.x.r0.value (memRead16 s s.pos) (rom 1)) (fold128 s.x.r1.value (memRead16 s (s.pos + 16)) (rom 1))
      (fold128 s.x.r2.value (memRead16 s (s.pos + 32)) (rom 1)) (fold128 s.x.r3.value (memRead16 s (s.pos + 48)) (rom 1))).advance
        64).goto (afterNarrowBlock (s.rem - 64))
  | .nCollapse => (s.writeX0 (fold128 (fold128 (fold128 s.x.r0.value s.x.r1.value (rom 2)) s.x.r2.value (rom 2)) s.x.r3.value
      (rom 2))).goto (afterNarrowLane s.rem)
  | .nInit1 => ((s.writeX0 (memRead16 s s.pos ^^^ s.crc.setWidth 128)).advance 16).goto (afterNarrowLane (s.rem - 16))
  | .nFold1 => ((s.writeX0 (fold128 s.x.r0.value (memRead16 s s.pos) (rom 2))).advance 16).goto (afterNarrowLane (s.rem - 16))
  | .rFold64 => (s.writeX0 (foldTo64 s.x.r0.value)).goto .rBarrett
  | .rBarrett => ((s.writeX0 (barrett s.x.r0.value)).setCrc (resultLane (barrett s.x.r0.value))).goto (afterScalar s.rem)
  | .clmulLL => s.takeMulWord.setDst128 (clmul .lo .lo s.mul.a128 s.mul.b128)
  | .clmulHL => s.takeMulWord.setDst128 (clmul .hi .lo s.mul.a128 s.mul.b128)
  | .clmulLH => s.takeMulWord.setDst128 (clmul .lo .hi s.mul.a128 s.mul.b128)
  | .clmulHH => s.takeMulWord.setDst128 (clmul .hi .hi s.mul.a128 s.mul.b128)
  | .vclmulLL => s.takeMulWord.setDst512 (vclmul .lo .lo s.mul.a512 s.mul.b512)
  | .vclmulHL => s.takeMulWord.setDst512 (vclmul .hi .lo s.mul.a512 s.mul.b512)
  | .vclmulLH => s.takeMulWord.setDst512 (vclmul .lo .hi s.mul.a512 s.mul.b512)
  | .vclmulHH => s.takeMulWord.setDst512 (vclmul .hi .hi s.mul.a512 s.mul.b512)

/-! ### The tests -/

/-- `UPDATE` asks for `IDLE` and a command that fits (rule R191, D18). -/
def needIdle (i : Instr) (s : State) (k : Result State) : Result State :=
  if i = .update then
    if s.op = Instr.code .update then if hostFits s = true then k else .refused .lengthTooWide else .refused .commandWhileBusy
  else k

/-- What the operation asks of `TIER` (rules R28, R211 (a)). -/
def needTier (i : Instr) (s : State) (k : Result State) : Result State :=
  if isVector i = true then needVectorTier s k else if runsAfterProbe i = true then needLegalTier s k else k

/-- The platform has every feature listed (rule R211 (c)). -/
def needFeatures (l : List Feature) (s : State) (k : Result State) : Result State := l.foldr (needFeature s) k

/-- The bytes the operation reads are there (rule R211 (b)). -/
def needRead (i : Instr) (s : State) (k : Result State) : Result State :=
  if bytesRead i = 0 then k else needBytes s (bytesRequired i) (bytesRead i) k

/-- `DONE` asks that no byte is left (rule R192). -/
def needNoBytes (i : Instr) (s : State) (k : Result State) : Result State :=
  if i = .done then if s.rem = 0 then k else .refused (.preconditionViolation .bytesLeft) else k

/-- The accumulators the operation's rule reads are valid (rule R23). -/
def needAccumulators (i : Instr) (s : State) (k : Result State) : Result State :=
  match i with
  | .wFold4 | .wCollapse => needZ s fun _ _ _ _ => k
  | .wFold1 | .wHred => needZ0 s fun _ => k
  | .nFold4 | .nCollapse => needX s fun _ _ _ _ => k
  | .nFold1 | .rFold64 | .rBarrett => needX0 s fun _ => k
  | _ => k

/-- The tests of an operation, in the order of log entry 8, and then `k`. -/
def tested (i : Instr) (s : State) (k : Result State) : Result State :=
  needIdle i s <| needTier i s <| needFeatures (featuresNeeded i) s <| needRead i s <| needNoBytes i s <| needAccumulators i s k

/-! What follows a test of accumulators may take their values from the state. -/

theorem needX0_eq_value {f : U128 → Result State} : needX0 s f = needX0 s fun _ => f s.x.r0.value := by
  rw [needX0, needX0]; cases s.x.r0 <;> rfl

theorem needZ0_eq_value {f : U512 → Result State} : needZ0 s f = needZ0 s fun _ => f s.z.r0.value := by
  rw [needZ0, needZ0]; cases s.z.r0 <;> rfl

theorem needX_eq_value {f : U128 → U128 → U128 → U128 → Result State} :
    needX s f = needX s fun _ _ _ _ => f s.x.r0.value s.x.r1.value s.x.r2.value s.x.r3.value := by
  rw [needX, needX]; cases s.x.r0 <;> cases s.x.r1 <;> cases s.x.r2 <;> cases s.x.r3 <;> rfl

theorem needZ_eq_value {f : U512 → U512 → U512 → U512 → Result State} :
    needZ s f = needZ s fun _ _ _ _ => f s.z.r0.value s.z.r1.value s.z.r2.value s.z.r3.value := by
  rw [needZ, needZ]; cases s.z.r0 <;> cases s.z.r1 <;> cases s.z.r2 <;> cases s.z.r3 <;> rfl

theorem execUpdate_eq_tested (s : State) : execUpdate s = tested .update s (.next (effect .update s)) := by
  show _ = needIdle .update s _
  unfold execUpdate needIdle hostFits effect
  cases s.host <;> rfl

/-- Every operation is its tests and then its effect. -/
theorem exec_eq_tested (i : Instr) (s : State) : exec i s = tested i s (.next (effect i s)) := by
  cases i
  case update => exact execUpdate_eq_tested s
  case sbyte =>
    show execSbyte s = _
    rw [execSbyte, memRead1_eq_read]
    rfl
  case wFold4 | wCollapse =>
    simp only [exec, execWFold4, execWCollapse]
    rw [needZ_eq_value]
    rfl
  case wFold1 | wHred =>
    simp only [exec, execWFold1, execWHred]
    rw [needZ0_eq_value]
    rfl
  case nFold4 | nCollapse =>
    simp only [exec, execNFold4, execNCollapse]
    rw [needX_eq_value]
    rfl
  case nFold1 | rFold64 | rBarrett =>
    simp only [exec, execNFold1, execRFold64, execRBarrett]
    rw [needX0_eq_value]
    rfl
  all_goals rfl

/-! ### When the tests pass -/

theorem needIdle_eq_next :
    needIdle i s k = .next t ↔ (i = .update → s.op = Instr.code .update ∧ hostFits s = true) ∧ k = .next t := by
  unfold needIdle; split_ifs <;> simp_all

theorem needTier_eq_next : needTier i s k = .next t ↔
    (runsAfterProbe i = true → s.tier ≠ 0b11#2) ∧ (isVector i = true → s.tier ≠ tierNone) ∧ k = .next t := by
  unfold needTier
  split_ifs with hvector hafter
  · simp [hvector, runsAfterProbe, tierNone]
  · simp [hvector, hafter]
  · simp [hvector, hafter]

theorem needFeatures_eq_next {l : List Feature} : needFeatures l s k = .next t ↔
    (∀ f ∈ l, hasFeature s.straps.platform f = true) ∧ k = .next t := by
  unfold needFeatures
  induction l with
  | nil => simp
  | cons f l ih => simp [ih, and_assoc]

/-- Only an operation that reads requires bytes. -/
theorem bytesRequired_eq_zero (h : bytesRead i = 0) : bytesRequired i = 0 := by
  cases i
  case nInit4 => cases h
  all_goals exact h

theorem needRead_eq_next : needRead i s k = .next t ↔
    bytesRequired i ≤ s.rem ∧ (bytesRead i ≠ 0 → s.pos + bytesRead i ≤ s.len) ∧ k = .next t := by
  unfold needRead
  split_ifs with hread
  · simp [hread, bytesRequired_eq_zero hread]
  · simp [hread]

theorem needNoBytes_eq_next : needNoBytes i s k = .next t ↔ (i = .done → s.rem = 0) ∧ k = .next t := by
  unfold needNoBytes; split_ifs <;> simp_all

theorem Acc.isValid_iff {w : Nat} {a : Acc w} : a.isValid = true ↔ ∃ v, a = .valid v := by
  cases a <;> simp

theorem AccFile.allValid_iff {w : Nat} {f : AccFile w} :
    f.allValid = true ↔ ∃ a b c d, f = ⟨.valid a, .valid b, .valid c, .valid d⟩ := by
  obtain ⟨r0, r1, r2, r3⟩ := f
  simp [Acc.isValid_iff, and_assoc]

theorem needAccumulators_eq_next : needAccumulators i s k = .next t ↔ accumulatorsReady i s = true ∧ k = .next t := by
  cases i
  case wFold4 | wCollapse => simp [needAccumulators, accumulatorsReady, AccFile.allValid_iff]
  case nFold4 | nCollapse => simp [needAccumulators, accumulatorsReady, AccFile.allValid_iff]
  case wFold1 | wHred => simp [needAccumulators, accumulatorsReady, Acc.isValid_iff]
  case nFold1 | rFold64 | rBarrett => simp [needAccumulators, accumulatorsReady, Acc.isValid_iff]
  all_goals simp [needAccumulators, accumulatorsReady]

theorem tested_eq_next : tested i s k = .next t ↔ Precondition i s ∧ k = .next t := by
  simp only [tested, needIdle_eq_next, needTier_eq_next, needFeatures_eq_next, needRead_eq_next, needNoBytes_eq_next,
    needAccumulators_eq_next]
  tauto

/-- An operation completes exactly where its precondition holds, and leaves its effect. -/
theorem exec_eq_next : exec i s = .next t ↔ Precondition i s ∧ effect i s = t := by
  rw [exec_eq_tested, tested_eq_next, Host.Outcome.next.injEq]

/-- Settles O47: the effect of an operation is always there, so what decides is the tests. -/
theorem completesExactlyOnPrecondition : Obligations.CompletesExactlyOnPrecondition := by
  unfold Obligations.CompletesExactlyOnPrecondition
  intro i s
  simp only [exec_eq_next, exists_and_left, exists_eq', and_true]

/-! ### Under which name a test fails -/

theorem needIdle_of (h : i ≠ .update) : needIdle i s k = k := if_neg h

theorem needTier_of (h : runsAfterProbe i = true → s.tier ≠ 0b11#2) (h0 : isVector i = true → s.tier ≠ 0b00#2) :
    needTier i s k = k := by
  unfold needTier
  split_ifs with hvector hafter
  · exact needVectorTier_of (h (by simp [runsAfterProbe, hvector])) (h0 hvector)
  · exact needLegalTier_of (h hafter)
  · rfl

theorem needTier_none (hvector : isVector i = true) (htier : s.tier = 0b00#2) :
    needTier i s k = .refused (.preconditionViolation .tierNone) := by
  simp [needTier, needVectorTier, needLegalTier, hvector, htier]

theorem needTier_reserved (hafter : runsAfterProbe i = true) (htier : s.tier = 0b11#2) :
    needTier i s k = .refused .reservedTier := by
  simp [needTier, needVectorTier, needLegalTier, hafter, htier]

theorem needFeatures_of {l : List Feature} (h : ∀ f ∈ l, hasFeature s.straps.platform f = true) : needFeatures l s k = k := by
  unfold needFeatures
  induction l with
  | nil => rfl
  | cons f l ih =>
    rw [List.forall_mem_cons] at h
    rw [List.foldr_cons, needFeature_of h.1, ih h.2]

theorem needFeatures_absent {l : List Feature} (h : ∃ f ∈ l, hasFeature s.straps.platform f = false) :
    needFeatures l s k = .refused (.preconditionViolation .featureAbsent) := by
  unfold needFeatures
  induction l with
  | nil => simp at h
  | cons f l ih =>
    rw [List.foldr_cons, needFeature]
    split
    next hf =>
      refine ih ?_
      simpa [hf] using h
    next => rfl

theorem needRead_short (h : s.rem < bytesRequired i) : needRead i s k = .refused (.preconditionViolation .bufferShort) := by
  have hread : bytesRead i ≠ 0 := fun h0 => by rw [bytesRequired_eq_zero h0] at h; omega
  rw [needRead, if_neg hread, needBytes, if_pos h]

theorem needRead_past (hread : bytesRead i ≠ 0) (hrem : bytesRequired i ≤ s.rem) (h : s.len < s.pos + bytesRead i) :
    needRead i s k = .refused (.preconditionViolation .readPastEnd) := by
  rw [needRead, if_neg hread, needBytes, if_neg (Nat.not_lt.2 hrem), if_pos h]

/-- `UPDATE` tests neither `TIER` nor the platform nor the bytes left. -/
theorem ne_update_of_runsAfterProbe (h : runsAfterProbe i = true) : i ≠ .update := by
  rintro rfl; cases h

theorem runsAfterProbe_of_isVector (h : isVector i = true) : runsAfterProbe i = true := by simp [runsAfterProbe, h]

theorem ne_update_of_mem_featuresNeeded {f : Feature} (h : f ∈ featuresNeeded i) : i ≠ .update := by
  rintro rfl; cases h

/-- Only a vector operation and a multiplier command need a feature. -/
theorem isVector_of_featuresNeeded {f : Feature} (h : f ∈ featuresNeeded i) (hafter : runsAfterProbe i = true) : isVector i = true := by
  cases i
  case sbyte | done => cases h
  all_goals exact hafter

/-- Settles O48: each clause passes the tests before the one it names. -/
theorem violationsAreRefusedByName : Obligations.ViolationsAreRefusedByName := by
  unfold Obligations.ViolationsAreRefusedByName
  intro i s
  rw [exec_eq_tested, tested]
  refine ⟨fun hvector htier => ?_, fun hafter htier => ?_, fun htier habsent => ?_, fun htier htier0 hfeat => ⟨fun hrem => ?_,
    fun hread hrem hlen => ?_, fun hdone hrem => ?_⟩⟩
  · rw [needIdle_of (ne_update_of_runsAfterProbe (runsAfterProbe_of_isVector hvector)), needTier_none hvector htier]
  · rw [needIdle_of (ne_update_of_runsAfterProbe hafter), needTier_reserved hafter htier]
  · obtain ⟨f, hf, -⟩ := id habsent
    rw [needIdle_of (ne_update_of_mem_featuresNeeded hf),
      needTier_of (fun hafter => (htier (isVector_of_featuresNeeded hf hafter)).1) (fun hvector => (htier hvector).2),
      needFeatures_absent habsent]
  · have hupdate : i ≠ .update := by rintro rfl; exact Nat.not_lt_zero _ hrem
    rw [needIdle_of hupdate, needTier_of htier htier0, needFeatures_of hfeat, needRead_short hrem]
  · have hupdate : i ≠ .update := by rintro rfl; exact hread rfl
    rw [needIdle_of hupdate, needTier_of htier htier0, needFeatures_of hfeat, needRead_past hread hrem hlen]
  · subst hdone
    rw [needIdle_of (by decide), needTier_of htier htier0, needFeatures_of hfeat]
    exact if_neg hrem

/-! ### What the effect leaves as it was -/

/-! One lemma for each column of the table of registers written (rules R34, R35). -/

theorem effect_crc (h : writesCrc i = false) : (effect i s).crc = s.crc := by
  cases i
  case update | sbyte | rBarrett => exact absurd h (by decide)
  all_goals exact rfl

theorem effect_x0 (h : writesX0 i = false) : (effect i s).x.r0 = s.x.r0 := by
  cases i
  case update | done | wHred | nInit4 | nFold4 | nCollapse | nInit1 | nFold1 | rFold64 | rBarrett => exact absurd h (by decide)
  all_goals exact rfl

theorem effect_x123 (h : writesX123 i = false) :
    (effect i s).x.r1 = s.x.r1 ∧ (effect i s).x.r2 = s.x.r2 ∧ (effect i s).x.r3 = s.x.r3 := by
  cases i
  case update | done | nInit4 | nFold4 => exact absurd h (by decide)
  all_goals exact ⟨rfl, rfl, rfl⟩

theorem effect_z0 (h : writesZ0 i = false) : (effect i s).z.r0 = s.z.r0 := by
  cases i
  case update | done | wInit | wFold4 | wCollapse | wFold1 => exact absurd h (by decide)
  all_goals exact rfl

theorem effect_z123 (h : writesZ123 i = false) :
    (effect i s).z.r1 = s.z.r1 ∧ (effect i s).z.r2 = s.z.r2 ∧ (effect i s).z.r3 = s.z.r3 := by
  cases i
  case update | done | wInit | wFold4 => exact absurd h (by decide)
  all_goals exact ⟨rfl, rfl, rfl⟩

theorem effect_cursor (h : writesCursor i = false) : (effect i s).pos = s.pos ∧ (effect i s).rem = s.rem := by
  cases i
  case update | done | sbyte | wInit | wFold4 | wFold1 | nInit4 | nFold4 | nInit1 | nFold1 => exact absurd h (by decide)
  all_goals exact ⟨rfl, rfl⟩

theorem effect_tier (h : writesTier i = false) : (effect i s).tier = s.tier := by
  cases i
  case update | done | probe => exact absurd h (by decide)
  all_goals exact rfl

theorem effect_command (h : endsCommand i = false) : (effect i s).len = s.len ∧
    (effect i s).hwcap = s.hwcap ∧ (effect i s).crcOut = s.crcOut ∧ (effect i s).draws = s.draws := by
  cases i
  case update | done => exact absurd h (by decide)
  all_goals exact ⟨rfl, rfl, rfl, rfl⟩

/-- No operation writes the straps or the buffer. -/
theorem effect_straps_mem (i : Instr) (s : State) : (effect i s).straps = s.straps ∧ (effect i s).mem = s.mem := by
  cases i
  case update => unfold effect; cases s.host <;> exact ⟨rfl, rfl⟩
  all_goals exact ⟨rfl, rfl⟩

theorem effect_host (h : i ≠ .update) : (effect i s).host = s.host := by
  cases i
  case update => contradiction
  all_goals rfl

theorem effect_mul (h : i.format = .s) : (effect i s).mul = s.mul := by
  cases i
  case update => unfold effect; cases s.host <;> rfl
  case clmulLL | clmulHL | clmulLH | clmulHH | vclmulLL | vclmulHL | vclmulLH | vclmulHH => contradiction
  all_goals rfl

/-- A multiplier command writes no register, takes its word from the port and leaves the operands there. -/
theorem effect_of_format_m (h : i.format = .m) : (effect i s).op = s.op ∧ (effect i s).mul.word = none ∧
    (effect i s).mul.a128 = s.mul.a128 ∧ (effect i s).mul.b128 = s.mul.b128 ∧ (effect i s).mul.a512 = s.mul.a512 ∧
    (effect i s).mul.b512 = s.mul.b512 := by
  cases i
  case clmulLL | clmulHL | clmulLH | clmulHH | vclmulLL | vclmulHL | vclmulLH | vclmulHH => exact ⟨rfl, rfl, rfl, rfl, rfl, rfl⟩
  all_goals contradiction

/-- Settles O8: neither is in any effect. -/
theorem bufferAndStrapsNeverWritten : Obligations.BufferAndStrapsNeverWritten := by
  unfold Obligations.BufferAndStrapsNeverWritten
  intro i s t h
  obtain ⟨-, rfl⟩ := exec_eq_next.1 h
  obtain ⟨hstraps, hmem⟩ := effect_straps_mem i s
  exact ⟨fun a => by rw [hmem], hmem, hstraps⟩

/-- Settles O10: the effect column by column. -/
theorem operationsWriteOnlyTheirRegisters : Obligations.OperationsWriteOnlyTheirRegisters := by
  unfold Obligations.OperationsWriteOnlyTheirRegisters
  intro i s t h
  obtain ⟨-, rfl⟩ := exec_eq_next.1 h
  obtain ⟨hstraps, hmem⟩ := effect_straps_mem i s
  refine ⟨effect_crc, effect_x0, effect_x123, effect_z0, effect_z123, effect_cursor, effect_tier, effect_command, effect_host, effect_mul,
    fun hm => ?_, hstraps, fun a => by rw [hmem]⟩
  obtain ⟨hop, -, hoperands⟩ := effect_of_format_m (s := s) hm
  exact ⟨hop, hoperands⟩

end Sys2Proof.Machine
end

section
/-! PROOFS. The invariant of the sequence (60_exceptions.md rule R211, 46_orchestrator.md rule R193): what is due has its precondition, and every
operation leaves what is due after it. -/

namespace Sys2Proof.Machine

variable {s t : State} {i : Instr}

/-! ### Tier selection as a rule (rule R100) -/

section
variable {p : Config.Straps} {h : U32} {r : Nat}

theorem selectTier_eq_none_iff : selectTier p h r = tierNone ↔ capBe h = true ∨ capNclmul h = false ∨ r < minVecBytes p.minVec := by
  unfold selectTier
  split_ifs <;> simp_all [tierNone, tierWide, tierNarrow]

theorem selectTier_eq_wide_iff : selectTier p h r = tierWide ↔ capBe h = false ∧ capNclmul h = true ∧ minVecBytes p.minVec ≤ r ∧
    capWclmul h = true ∧ capV512 h = true ∧ wideMinBytes p.wideMin ≤ r := by
  unfold selectTier
  split_ifs <;> simp_all [tierNone, tierWide, tierNarrow]

theorem selectTier_eq_narrow_iff : selectTier p h r = tierNarrow ↔ capBe h = false ∧ capNclmul h = true ∧ minVecBytes p.minVec ≤ r ∧
    ¬(capWclmul h = true ∧ capV512 h = true ∧ wideMinBytes p.wideMin ≤ r) := by
  unfold selectTier
  split_ifs <;> simp_all [tierNone, tierWide, tierNarrow]

end

/-- Settles O11: the lines of R100, and the straps' values. -/
theorem selectTierIsTheRule : Obligations.SelectTierIsTheRule := by
  unfold Obligations.SelectTierIsTheRule
  exact ⟨fun p h r => ⟨selectTier_eq_wide_iff, selectTier_eq_none_iff, selectTier_eq_narrow_iff⟩, rfl, rfl, rfl, rfl⟩

/-! ### The precondition of what is due -/

/-- After `UPDATE` the cursor adds up (rule R24). -/
theorem cursorOk_of_phaseAt (h : phaseAt i s = true) (hi : i ≠ .update) : CursorOk s := by
  cases i
  case update => contradiction
  case probe =>
    obtain ⟨hpos, hrem, -⟩ := of_decide_eq_true h
    rw [CursorOk, hpos, hrem, Nat.zero_add]
  case clmulLL | clmulHL | clmulLH | clmulHH | vclmulLL | vclmulHL | vclmulLH | vclmulHH => cases h
  all_goals exact (of_decide_eq_true h).1

theorem WideOk.tier_legal (h : WideOk s) : s.tier ≠ 0b11#2 := by
  rw [h.1]; decide

theorem NarrowOk.tier_legal (h : NarrowOk s) : s.tier ≠ 0b11#2 := by
  rw [h.1]; decide

theorem ReduceOk.tier_legal (h : ReduceOk s) : s.tier ≠ 0b11#2 := by
  obtain ⟨hwide, -⟩ | ⟨hnarrow, -⟩ := h
  · exact hwide.tier_legal
  · exact hnarrow.tier_legal

theorem ReduceOk.narrowLanes (h : ReduceOk s) : hasFeature s.straps.platform .narrowLanes = true := by
  obtain ⟨⟨-, -, hfeat⟩, -⟩ | ⟨⟨-, hfeat⟩, -⟩ := h
  · exact hfeat
  · exact hfeat

theorem tier_legal_of_phaseAt (h : phaseAt i s = true) (hafter : runsAfterProbe i = true) : s.tier ≠ 0b11#2 := by
  cases i
  case sbyte | done =>
    obtain ⟨-, htier, -⟩ := of_decide_eq_true h
    exact htier
  case wInit | wFold4 | wCollapse | wFold1 | wHred =>
    obtain ⟨-, hwide, -⟩ := of_decide_eq_true h
    exact WideOk.tier_legal hwide
  case nInit4 | nFold4 | nCollapse | nInit1 | nFold1 =>
    obtain ⟨-, hnarrow, -⟩ := of_decide_eq_true h
    exact NarrowOk.tier_legal hnarrow
  case rFold64 | rBarrett =>
    obtain ⟨-, hreduce, -⟩ := of_decide_eq_true h
    exact ReduceOk.tier_legal hreduce
  all_goals contradiction

/-- The selected tier brings the features its operations need (rule R104). -/
theorem features_of_phaseAt (h : phaseAt i s = true) : ∀ f ∈ featuresNeeded i, hasFeature s.straps.platform f = true := by
  cases i
  case update | probe | sbyte | done => exact fun f hf => absurd hf List.not_mem_nil
  case wInit | wFold4 | wCollapse | wFold1 =>
    obtain ⟨-, ⟨-, hwide, -⟩, -⟩ := of_decide_eq_true h
    exact List.forall_mem_singleton.2 hwide
  case wHred =>
    obtain ⟨-, ⟨-, hwide, hnarrow⟩, -⟩ := of_decide_eq_true h
    exact List.forall_mem_cons.2 ⟨hwide, List.forall_mem_singleton.2 hnarrow⟩
  case nInit4 | nFold4 | nCollapse | nInit1 | nFold1 =>
    obtain ⟨-, ⟨-, hnarrow⟩, -⟩ := of_decide_eq_true h
    exact List.forall_mem_singleton.2 hnarrow
  case rFold64 | rBarrett =>
    obtain ⟨-, hreduce, -⟩ := of_decide_eq_true h
    exact List.forall_mem_singleton.2 (ReduceOk.narrowLanes hreduce)
  all_goals contradiction

theorem bytesRequired_le_of_phaseAt (h : phaseAt i s = true) : bytesRequired i ≤ s.rem := by
  cases i
  case sbyte | wFold1 | wInit | wFold4 | nInit4 | nFold4 | nInit1 | nFold1 =>
    have hphase := of_decide_eq_true h
    simp only [bytesRequired, bytesRead]
    omega
  all_goals exact Nat.zero_le _

theorem bytesRead_le_bytesRequired (i : Instr) : bytesRead i ≤ bytesRequired i := by
  cases i
  case nInit4 => decide
  all_goals exact Nat.le_refl _

theorem hostFits_of_hostOk (h : hostOk s = true) : hostFits s = true := by
  unfold hostOk at h
  unfold hostFits
  split <;> simp_all

/-- What is due has its precondition (rule R211). -/
theorem precondition_of_phaseAt (hidle : i = .update → s.op = Instr.code .update ∧ hostFits s = true) (h : phaseAt i s = true) :
    Precondition i s := by
  refine ⟨tier_legal_of_phaseAt h, tier_ne_none_of_phaseAt h, features_of_phaseAt h, bytesRequired_le_of_phaseAt h, fun hread => ?_,
    accumulatorsReady_of_phaseAt h, ?_, hidle⟩
  · have hcursor : s.pos + s.rem = s.len := cursorOk_of_phaseAt h (by rintro rfl; exact hread rfl)
    have hrem := bytesRequired_le_of_phaseAt h
    have hle := bytesRead_le_bytesRequired i
    omega
  · rintro rfl
    obtain ⟨-, -, hrem⟩ := of_decide_eq_true h
    exact hrem

/-! ### Each choice of a next operation is one of what is then due -/

theorem phaseAt_afterScalar (hcursor : CursorOk s) (htier : s.tier ≠ 0b11#2) : phaseAt (afterScalar s.rem) s = true := by
  unfold afterScalar
  split
  · exact decide_eq_true ⟨hcursor, htier, ‹_›⟩
  · exact decide_eq_true ⟨hcursor, htier, by omega⟩

theorem phaseAt_afterWideBlock (hcursor : CursorOk s) (hwide : WideOk s) (hz : s.z.allValid = true) :
    phaseAt (afterWideBlock s.rem) s = true := by
  unfold afterWideBlock
  split
  · exact decide_eq_true ⟨hcursor, hwide, hz, ‹_›⟩
  · exact decide_eq_true ⟨hcursor, hwide, hz, by omega⟩

theorem phaseAt_afterWideLane (hcursor : CursorOk s) (hwide : WideOk s) (hz : s.z.r0.isValid = true) (hrem : s.rem < 256) :
    phaseAt (afterWideLane s.rem) s = true := by
  unfold afterWideLane
  split
  · exact decide_eq_true ⟨hcursor, hwide, hz, ‹_›, hrem⟩
  · exact decide_eq_true ⟨hcursor, hwide, hz, by omega⟩

theorem phaseAt_afterNarrowBlock (hcursor : CursorOk s) (hnarrow : NarrowOk s) (hx : s.x.allValid = true) :
    phaseAt (afterNarrowBlock s.rem) s = true := by
  unfold afterNarrowBlock
  split
  · exact decide_eq_true ⟨hcursor, hnarrow, hx, ‹_›⟩
  · exact decide_eq_true ⟨hcursor, hnarrow, hx, by omega⟩

theorem phaseAt_afterNarrowLane (hcursor : CursorOk s) (hnarrow : NarrowOk s) (hx : s.x.r0.isValid = true) :
    phaseAt (afterNarrowLane s.rem) s = true := by
  unfold afterNarrowLane
  split
  · exact decide_eq_true ⟨hcursor, hnarrow, hx, ‹_›⟩
  · exact decide_eq_true ⟨hcursor, .inr ⟨hnarrow, by omega⟩, hx⟩

/-- With a true capability word the platform can run the tier `PROBE` selects (rules R104, R247). -/
theorem narrowLanes_of_truthful {p : Config.Platform} {h : U32} (htruth : Truthful p h) (hbe : capBe h = false) (hn : capNclmul h = true) :
    hasFeature p .narrowLanes = true := by
  obtain ⟨hnclmul, -, -, hbig⟩ := htruth
  have hlittle : p.bigEndian = false := by
    rw [← Bool.not_eq_true]
    exact fun hb => by simp [hbig hb] at hbe
  simp [hasFeature, hnclmul hn, hlittle]

theorem wideLanes_of_truthful {p : Config.Platform} {h : U32} (htruth : Truthful p h) (hbe : capBe h = false) (hw : capWclmul h = true)
    (hv : capV512 h = true) : hasFeature p .wideLanes = true := by
  obtain ⟨-, hwclmul, hv512, hbig⟩ := htruth
  have hlittle : p.bigEndian = false := by
    rw [← Bool.not_eq_true]
    exact fun hb => by simp [hbig hb] at hbe
  simp [hasFeature, hwclmul hw, hv512 hv, hlittle]

theorem phaseAt_probed (h : phaseAt .probe s = true) :
    phaseAt (afterProbe (selectTier s.straps s.hwcap s.rem) s.rem) s.probed = true := by
  obtain ⟨hpos, hrem, htruth⟩ := of_decide_eq_true h
  have hcursor : CursorOk s.probed := cursorOk_of_phaseAt (i := .probe) h (by decide)
  have hmin := sixteen_le_minVecBytes s.straps.minVec
  rcases selectTier_cases s.straps s.hwcap s.rem with htier | htier | htier
  · rw [htier, afterProbe_none]
    exact phaseAt_afterScalar (s := s.probed) hcursor (by rw [State.probed_tier, htier]; decide)
  · obtain ⟨hbe, hn, hlen, -⟩ := selectTier_eq_narrow_iff.1 htier
    have hnarrow : NarrowOk s.probed := ⟨htier, narrowLanes_of_truthful htruth hbe hn⟩
    rw [htier, afterProbe_narrow]
    split
    · exact decide_eq_true ⟨hcursor, hnarrow, hpos, ‹_›⟩
    · exact decide_eq_true ⟨hcursor, hnarrow, hpos, hmin.trans hlen, by rw [State.probed_rem]; omega⟩
  · obtain ⟨hbe, hn, -, hw, hv, hlen⟩ := selectTier_eq_wide_iff.1 htier
    have hwide : WideOk s.probed := ⟨htier, wideLanes_of_truthful htruth hbe hw hv, narrowLanes_of_truthful htruth hbe hn⟩
    rw [htier, afterProbe_wide]
    exact decide_eq_true ⟨hcursor, hwide, hpos, (le_wideMinBytes _).trans hlen⟩

/-- As `R.FOLD64` leaves it (rule R171). -/
theorem half_hi_foldTo64 (v : U128) : half .hi (foldTo64 v) = 0 := by
  refine BitVec.eq_of_getLsbD_eq fun k hk => ?_
  rw [half, BitVec.getLsbD_extractLsb', Bool.and_eq_false_imp.2 fun _ => ?_]
  · simp
  · exact Nat.testBit_lt_two_pow ((foldTo64_toNat_lt v).trans_le (Nat.pow_le_pow_right (by decide) (by omega)))

/-! ### Every operation leaves what is due after it -/

/-- The cases are the operations inside a command: the tier and the platform stay, and each leaves valid what the next one reads. -/
theorem phaseAt_effect (hpre : Precondition i s) (hi : i.format = .s) (hends : endsCommand i = false) (h : phaseAt i s = true) :
    phaseAt (nextOp i (effect i s).tier (effect i s).rem) (effect i s) = true := by
  have hcursor : CursorOk (effect i s) := by
    obtain ⟨-, ⟨hread, hpos, hrem, hlen⟩, -⟩ := exec_next_inside hends (exec_eq_next.2 ⟨hpre, rfl⟩)
    have hbefore : s.pos + s.rem = s.len := cursorOk_of_phaseAt h (endsCommand_eq_false_iff.1 hends).1
    rw [CursorOk, hpos, hrem, hlen]
    omega
  cases i
  case update | done | clmulLL | clmulHL | clmulLH | clmulHH | vclmulLL | vclmulHL | vclmulLH | vclmulHH => contradiction
  case probe => exact phaseAt_probed h
  case sbyte =>
    obtain ⟨-, htier, -⟩ := of_decide_eq_true h
    exact phaseAt_afterScalar hcursor htier
  case wInit | wFold4 =>
    obtain ⟨-, hwide, -⟩ := of_decide_eq_true h
    exact phaseAt_afterWideBlock hcursor hwide rfl
  case wCollapse =>
    obtain ⟨-, hwide, -, hrem⟩ := of_decide_eq_true h
    exact phaseAt_afterWideLane hcursor hwide rfl hrem
  case wFold1 =>
    obtain ⟨-, hwide, -, -, hrem⟩ := of_decide_eq_true h
    exact phaseAt_afterWideLane hcursor hwide rfl ((Nat.sub_le _ _).trans_lt hrem)
  case wHred =>
    obtain ⟨-, hwide, -, hrem⟩ := of_decide_eq_true h
    exact decide_eq_true ⟨hcursor, .inl ⟨hwide, hrem⟩, rfl⟩
  case nInit4 | nFold4 =>
    obtain ⟨-, hnarrow, -⟩ := of_decide_eq_true h
    exact phaseAt_afterNarrowBlock hcursor hnarrow rfl
  case nCollapse | nInit1 | nFold1 =>
    obtain ⟨-, hnarrow, -⟩ := of_decide_eq_true h
    exact phaseAt_afterNarrowLane hcursor hnarrow rfl
  case rFold64 =>
    obtain ⟨-, hreduce, -⟩ := of_decide_eq_true h
    exact decide_eq_true ⟨hcursor, hreduce, rfl, beq_iff_eq.2 (half_hi_foldTo64 _)⟩
  case rBarrett =>
    obtain ⟨-, hreduce, -⟩ := of_decide_eq_true h
    exact phaseAt_afterScalar hcursor (ReduceOk.tier_legal hreduce)

/-! ### A step where the invariant holds -/

/-- A code decodes to the one sequencer operation it names. -/
theorem decodeS_eq_ok {op : BitVec 5} : decodeS op = .ok i ↔ i.format = .s ∧ op = i.code := by
  refine ⟨fun h => ?_, fun ⟨hi, hop⟩ => hop ▸ decodeS_code hi⟩
  have hword := encodeWord_of_decodeS h
  have hfields : ∀ op : BitVec 5, fieldOpc (formatS op) = op ∧ (formatS op).toNat < 0x20 := by decide
  obtain ⟨hcode, hlow⟩ := hfields op
  exact ⟨by rw [format_eq_ite, hword, if_pos hlow], by rw [Instr.code, hword, hcode]⟩

theorem phaseOk_eq_true : phaseOk s = true ↔ ∃ i, i.format = .s ∧ s.op = i.code ∧ phaseAt i s = true := by
  constructor
  · intro h
    unfold phaseOk at h
    split at h
    next i hi =>
      obtain ⟨hformat, hop⟩ := decodeS_eq_ok.1 hi
      exact ⟨i, hformat, hop, h⟩
    next => cases h
  · rintro ⟨i, hi, hop, h⟩
    rw [phaseOk, hop, decodeS_code hi]
    exact h

/-- With an empty port a step is the operation whose code `OP` holds. -/
theorem step_eq_exec (hop : s.op = i.code) (hi : i.format = .s) (hport : s.mul.word = none) : step s = exec i s := by
  rw [step_of_none hport, runOperation, fetchInstr_eq_ok.2 (decodeS_eq_ok.2 ⟨hi, hop⟩)]

/-- Where the invariant holds a step is the operation due, whose precondition holds. -/
theorem Inv.due (h : Inv s) : ∃ i, i.format = .s ∧ s.op = i.code ∧ phaseAt i s = true ∧ Precondition i s ∧
    step s = .next (effect i s) := by
  obtain ⟨-, hport, hhost, hphase⟩ := h
  obtain ⟨i, hi, hop, hdue⟩ := phaseOk_eq_true.1 hphase
  have hpre := precondition_of_phaseAt (fun hupdate => ⟨hupdate ▸ hop, hostFits_of_hostOk hhost⟩) hdue
  exact ⟨i, hi, hop, hdue, hpre, (step_eq_exec hop hi hport).trans (exec_eq_next.2 ⟨hpre, rfl⟩)⟩

theorem hostOk_congr (hhost : t.host = s.host) (hstraps : t.straps = s.straps) : hostOk t = hostOk s := by
  simp only [hostOk, hhost, hstraps]

/-- `UPDATE` leaves `PROBE` due, with the capability word the host vouches for. -/
theorem inv_accept {c : Command} (h : Inv s) (hc : s.host = some c) : Inv (s.accept c) := by
  obtain ⟨hmem, hport, hhost, -⟩ := h
  rw [hostOk, hc, Bool.and_eq_true, decide_eq_true_eq] at hhost
  exact ⟨hmem, hport, rfl, phaseOk_eq_true.2 ⟨.probe, rfl, rfl, decide_eq_true ⟨rfl, rfl, hhost.2⟩⟩⟩

theorem inv_effect (h : Inv s) (hi : i.format = .s) (hop : s.op = i.code) (hdue : phaseAt i s = true) (hpre : Precondition i s) :
    Inv (effect i s) := by
  obtain ⟨hmem, hport, hhost, -⟩ := id h
  by_cases hupdate : i = .update
  · subst hupdate
    unfold effect
    cases hc : s.host with
    | none => exact h
    | some c => exact inv_accept h hc
  obtain ⟨hstraps, hbuffer⟩ := effect_straps_mem i s
  refine ⟨hbuffer ▸ hmem, (effect_mul hi).symm ▸ hport, (hostOk_congr (effect_host hupdate) hstraps).trans hhost,
    phaseOk_eq_true.2 ?_⟩
  by_cases hdone : i = .done
  · subst hdone
    exact ⟨.update, rfl, rfl, rfl⟩
  · have hends := endsCommand_eq_false_iff.2 ⟨hupdate, hdone⟩
    obtain ⟨hnext, -, -⟩ := exec_next_transfer hi hends (exec_eq_next.2 ⟨hpre, rfl⟩)
    exact ⟨_, nextOp_format hi _ _, hnext, phaseAt_effect hpre hi hends hdue⟩

/-! ### The statements -/

/-- Settles O52: the step is the operation due, and its effect leaves due what follows it. -/
theorem stepKeepsInvariant : Obligations.StepKeepsInvariant := by
  unfold Obligations.StepKeepsInvariant
  intro s t h hstep
  obtain ⟨i, hi, hop, hdue, hpre, hnext⟩ := Inv.due h
  obtain rfl : effect i s = t := Host.Outcome.next.inj (hnext.symm.trans hstep)
  exact inv_effect h hi hop hdue hpre

/-- Settles O53: what is due completes. -/
theorem invariantStatesNeverStop : Obligations.InvariantStatesNeverStop := by
  unfold Obligations.InvariantStatesNeverStop
  intro s h
  obtain ⟨i, -, -, -, -, hnext⟩ := Inv.due h
  exact ⟨_, hnext⟩

/-- Settles O54: `UPDATE` establishes it, the operations inside a command keep it, and at `DONE` all of the buffer is consumed. -/
theorem accumulatorsStandForConsumedBytes : Obligations.AccumulatorsStandForConsumedBytes := by
  unfold Obligations.AccumulatorsStandForConsumedBytes
  refine ⟨fun s t c hc h => ?_, fun crcIn s t hinv hs hidle hdone hstep => ?_, fun crcIn s t hinv hs hdone hstep => ?_⟩
  · rw [exec_update_next hc h]
    exact (standsFor_iff_standsAt (i := .probe) rfl rfl).2 ⟨rfl, rfl⟩
  · obtain ⟨i, hi, hop, -, hpre, hnext⟩ := Inv.due hinv
    rw [hstep] at hnext
    have hends : endsCommand i = false := endsCommand_eq_false_iff.2
      ⟨by rintro rfl; exact hidle hop, by rintro rfl; exact hdone hop⟩
    exact exec_next_standsFor hop hi hends hs (exec_eq_next.2 ⟨hpre, (Host.Outcome.next.inj hnext).symm⟩)
  · obtain ⟨i, hi, hop, hdue, hpre, hnext⟩ := Inv.due hinv
    obtain rfl : i = .done := code_injective hi rfl (hop.symm.trans hdone)
    obtain rfl : s.delivered = t := Host.Outcome.next.inj (hnext.symm.trans hstep)
    obtain ⟨hcursor, -, hrem⟩ := of_decide_eq_true hdue
    have hpos : s.pos = s.len := by rw [← hcursor, hrem, Nat.add_zero]
    have hcrc : s.crc = consumedCrc crcIn s := (standsFor_iff_standsAt hop rfl).1 hs
    rw [State.delivered_crcOut, hcrc, consumedCrc, hpos]

end Sys2Proof.Machine
end

section
/-! PROOFS. What an operation does not depend on (10_state.md rules R34, R35, 60_exceptions.md rule R221): a change of the state that no test
sees and that the effect carries along is carried along by the outcome. -/

namespace Sys2Proof.Machine

variable {s : State} {i : Instr} {k : Result State} {f : State → State}

/-! ### A change after the tests is a change after the outcome -/

theorem mapNext_needLegalTier : mapNext f (needLegalTier s k) = needLegalTier s (mapNext f k) := by
  unfold needLegalTier; split_ifs <;> rfl

theorem mapNext_needVectorTier : mapNext f (needVectorTier s k) = needVectorTier s (mapNext f k) := by
  unfold needVectorTier; rw [mapNext_needLegalTier]; split_ifs <;> rfl

theorem mapNext_needIdle : mapNext f (needIdle i s k) = needIdle i s (mapNext f k) := by
  unfold needIdle; split_ifs <;> rfl

theorem mapNext_needTier : mapNext f (needTier i s k) = needTier i s (mapNext f k) := by
  unfold needTier
  split_ifs
  · exact mapNext_needVectorTier
  · exact mapNext_needLegalTier
  · rfl

theorem mapNext_needFeatures {l : List Feature} : mapNext f (needFeatures l s k) = needFeatures l s (mapNext f k) := by
  unfold needFeatures
  induction l with
  | nil => rfl
  | cons g l ih =>
    rw [List.foldr_cons, List.foldr_cons, ← ih, needFeature, needFeature]
    split_ifs <;> rfl

theorem mapNext_needRead : mapNext f (needRead i s k) = needRead i s (mapNext f k) := by
  unfold needRead needBytes; split_ifs <;> rfl

theorem mapNext_needNoBytes : mapNext f (needNoBytes i s k) = needNoBytes i s (mapNext f k) := by
  unfold needNoBytes; split_ifs <;> rfl

theorem mapNext_needAcc {w : Nat} {r : AccName} {a : Acc w} {g : BitVec w → Result State} :
    mapNext f (needAcc r a g) = needAcc r a fun v => mapNext f (g v) := by
  cases a <;> rfl

theorem mapNext_needAccumulators : mapNext f (needAccumulators i s k) = needAccumulators i s (mapNext f k) := by
  cases i
  case wFold4 | wCollapse => simp only [needAccumulators, needZ, mapNext_needAcc]
  case wFold1 | wHred => simp only [needAccumulators, needZ0, mapNext_needAcc]
  case nFold4 | nCollapse => simp only [needAccumulators, needX, mapNext_needAcc]
  case nFold1 | rFold64 | rBarrett => simp only [needAccumulators, needX0, mapNext_needAcc]
  all_goals rfl

theorem mapNext_tested : mapNext f (tested i s k) = tested i s (mapNext f k) := by
  simp only [tested, mapNext_needIdle, mapNext_needTier, mapNext_needFeatures, mapNext_needRead, mapNext_needNoBytes,
    mapNext_needAccumulators]

/-- A change that no test sees and the effect carries along. -/
theorem exec_map (htested : ∀ k, tested i (f s) k = tested i s k) (heffect : effect i (f s) = f (effect i s)) :
    exec i (f s) = mapNext f (exec i s) := by
  rw [exec_eq_tested, exec_eq_tested, htested, heffect, mapNext_tested]
  rfl

/-- A change that `UPDATE` carries along: it leaves the presented command, and a command is accepted in spite of it. -/
theorem effect_update_map (hhost : (f s).host = s.host) (haccept : ∀ c, (f s).accept c = f (s.accept c)) :
    effect .update (f s) = f (effect .update s) := by
  simp only [effect, hhost]
  cases s.host with
  | none => rfl
  | some c => exact haccept c

/-! ### The buffer's other bytes -/

theorem Memory.assemble_congr {w n a : Nat} {m m' : Memory} (h : ∀ b, a ≤ b → b < a + n → m.read b = m'.read b) :
    m.assemble w a n = m'.assemble w a n := by
  induction n generalizing a with
  | zero => rfl
  | succ n ih => rw [Memory.assemble, Memory.assemble, h a (by omega) (by omega), ih fun b hb hb' => h b (by omega) (by omega)]

section
variable {m : Memory} {n : Nat}

/-- A narrow lane inside a stretch on which two buffers agree. -/
theorem memRead16_congr (h : ∀ a, s.pos ≤ a → a < s.pos + n → m.read a = s.mem.read a) {d : Nat} (hd : d + 16 ≤ n) :
    memRead16 { s with mem := m } (s.pos + d) = memRead16 s (s.pos + d) :=
  Memory.assemble_congr fun a ha ha' => h a (by omega) (by omega)

/-- A wide lane inside a stretch on which two buffers agree. -/
theorem memRead64_congr (h : ∀ a, s.pos ≤ a → a < s.pos + n → m.read a = s.mem.read a) {d : Nat} (hd : d + 64 ≤ n) :
    memRead64 { s with mem := m } (s.pos + d) = memRead64 s (s.pos + d) :=
  Memory.assemble_congr fun a ha ha' => h a (by omega) (by omega)

/-- The effect takes no byte but those the operation reads (rule R34, column "buffer"). -/
theorem effect_mem (h : ∀ a, s.pos ≤ a → a < s.pos + bytesRead i → m.read a = s.mem.read a) :
    effect i { s with mem := m } = { effect i s with mem := m } := by
  cases i
  case update => exact effect_update_map (f := fun t => { t with mem := m }) rfl fun _ => rfl
  case sbyte =>
    have hbyte : m.read s.pos = s.mem.read s.pos := h s.pos (Nat.le_refl _) (Nat.lt_succ_self _)
    simp only [effect, State.consumeBytes, Memory.bytes, hbyte]
    rfl
  case wInit | wFold4 =>
    have h0 := memRead64_congr h (d := 0) (by decide)
    have h1 := memRead64_congr h (d := 64) (by decide)
    have h2 := memRead64_congr h (d := 128) (by decide)
    have h3 := memRead64_congr h (d := 192) (by decide)
    simp only [Nat.add_zero] at h0
    simp only [effect, h0, h1, h2, h3]
    rfl
  case wFold1 =>
    have h0 := memRead64_congr h (d := 0) (by decide)
    simp only [Nat.add_zero] at h0
    simp only [effect, h0]
    rfl
  case nInit4 | nFold4 =>
    have h0 := memRead16_congr h (d := 0) (by decide)
    have h1 := memRead16_congr h (d := 16) (by decide)
    have h2 := memRead16_congr h (d := 32) (by decide)
    have h3 := memRead16_congr h (d := 48) (by decide)
    simp only [Nat.add_zero] at h0
    simp only [effect, h0, h1, h2, h3]
    rfl
  case nInit1 | nFold1 =>
    have h0 := memRead16_congr h (d := 0) (by decide)
    simp only [Nat.add_zero] at h0
    simp only [effect, h0]
    rfl
  all_goals rfl

end

/-- Settles O7: no test reads the buffer, and the effect reads only those bytes. -/
theorem outcomeIgnoresUnreadBytes : Obligations.OutcomeIgnoresUnreadBytes := by
  unfold Obligations.OutcomeIgnoresUnreadBytes
  exact fun i s m h => exec_map (f := fun t => { t with mem := m }) (fun _ => rfl) (effect_mem h)

/-! ### The result register and the count of free values -/

/-- Inside a command no effect reads `CRC_OUT`, and none draws a free value. -/
theorem effect_result (v : U32) (d : Nat) (h : endsCommand i = false) :
    effect i { s with crcOut := v, draws := d } = { effect i s with crcOut := v, draws := d } := by
  cases i
  case update | done => contradiction
  all_goals rfl

/-- Two commands alike are accepted alike, whatever the registers held, and `PROBE` writes `TIER` anew. -/
theorem probed_accept_eq {s s' : State} {c : Command} (hstraps : s.straps = s'.straps) (hmem : s.mem = s'.mem) (hmul : s.mul = s'.mul) :
    (s.accept c).probed = { (s'.accept c).probed with crcOut := (s.accept c).probed.crcOut, draws := (s.accept c).probed.draws } := by
  simp only [State.accept, State.probed, State.forgetResult, State.invalidate, State.goto, State.setTier, hstraps, hmem, hmul]

/-- Two steps of a command the host may present: it is accepted and its tier selected. -/
theorem run_two_of_command {c : Command} (hop : s.op = Instr.code .update) (hhost : s.host = some c) (hport : s.mul.word = none)
    (hfits : c.wf s.straps.lenBits = true) : core.run 2 s = .next (s.accept c).probed :=
  run_succ_eq_next.2 ⟨s.accept c, (step_eq_exec hop rfl hport).trans (exec_update_of_fits hop hhost hfits),
    run_succ_eq_next.2 ⟨_, step_eq_exec (i := .probe) rfl rfl hport, rfl⟩⟩

/-- Settles O59: the state after `PROBE` written out; inside a command no effect reads the two; `DONE` writes `CRC_OUT`. -/
theorem unspecifiedRegistersAreNeverRead : Obligations.UnspecifiedRegistersAreNeverRead := by
  unfold Obligations.UnspecifiedRegistersAreNeverRead
  refine ⟨fun s s' c hop hop' hhost hhost' hstraps hmem hmul hport hfits => ?_, fun i s v d hupdate hdone => ?_, fun s v => rfl⟩
  · exact ⟨_, _, run_two_of_command hop hhost hport hfits, run_two_of_command hop' hhost' (hmul ▸ hport) (hstraps ▸ hfits),
      probed_accept_eq hstraps hmem hmul⟩
  · exact exec_map (f := fun t => { t with crcOut := v, draws := d }) (fun _ => rfl)
      (effect_result v d (endsCommand_eq_false_iff.2 ⟨hupdate, hdone⟩))

/-! ### The strap `DEBUG_ASSERT` -/

/-- The strap set to `b`. -/
def State.setDebugAssert (b : Bool) (s : State) : State := { s with straps := { s.straps with debugAssert := b } }

theorem effect_setDebugAssert (b : Bool) : effect i (s.setDebugAssert b) = (effect i s).setDebugAssert b := by
  cases i
  case update => exact effect_update_map (f := (·.setDebugAssert b)) rfl fun _ => rfl
  all_goals rfl

theorem exec_setDebugAssert (b : Bool) (i : Instr) (s : State) : exec i (s.setDebugAssert b) = mapNext (·.setDebugAssert b) (exec i s) :=
  exec_map (f := (·.setDebugAssert b)) (fun _ => rfl) (effect_setDebugAssert b)

theorem runPort_setDebugAssert (b : Bool) (s : State) : runPort (s.setDebugAssert b) = mapNext (·.setDebugAssert b) (runPort s) := by
  have hword : (s.setDebugAssert b).mul.word = s.mul.word := rfl
  unfold runPort
  rw [hword]
  cases s.mul.word with
  | none => rfl
  | some w =>
    dsimp only
    cases portInstr w with
    | ok i => exact exec_setDebugAssert b i s
    | error r => rfl

theorem runOperation_setDebugAssert (b : Bool) (s : State) :
    runOperation (s.setDebugAssert b) = mapNext (·.setDebugAssert b) (runOperation s) := by
  have hfetch : fetchInstr (s.setDebugAssert b) = fetchInstr s := rfl
  unfold runOperation
  rw [hfetch]
  cases fetchInstr s with
  | ok i => exact exec_setDebugAssert b i s
  | error r => rfl

theorem step_setDebugAssert (b : Bool) (s : State) : step (s.setDebugAssert b) = mapNext (·.setDebugAssert b) (step s) := by
  unfold step sequencerStep
  rw [runPort_setDebugAssert]
  cases runPort s with
  | next m => exact runOperation_setDebugAssert b m
  | fault e => rfl
  | refused r => rfl

/-- Settles O60: a step is operations, and the invariant has the precondition of what is due. -/
theorem debugAssertHasNoEffect : Obligations.DebugAssertHasNoEffect := by
  unfold Obligations.DebugAssertHasNoEffect
  refine ⟨fun s b => step_setDebugAssert b s, fun s i hinv hi => ?_⟩
  obtain ⟨j, hj, hop, -, hpre, -⟩ := Inv.due hinv
  rw [fetchWord, decodeWord_formatS, hop, decodeS_code hj] at hi
  exact Except.ok.inj hi ▸ hpre

end Sys2Proof.Machine
end

section
/-! PROOFS. Whole commands complete (46_orchestrator.md rules R195, R202, R203): from every point after `PROBE` the machine runs the operations
the table of rule R202 has from there on, and the lanes consumed when the reduction is reached are whole. -/

namespace Sys2Proof.Machine

variable {s t : State} {i : Instr}

/-! ### The operations from one on (the table of rule R202) -/

/-- The bytes left, one by one, and the end. -/
def scalarOps (rem : Nat) : List Instr := List.replicate rem .sbyte ++ [.done]

/-- The reduction and its tail. -/
def reduceOps (rem : Nat) : List Instr := .rFold64 :: .rBarrett :: scalarOps rem

/-- The narrow lanes left, and what follows. -/
def narrowLaneOps (rem : Nat) : List Instr := List.replicate (rem / 16) .nFold1 ++ reduceOps (rem % 16)

/-- The narrow blocks left, and what follows. -/
def narrowBlockOps (rem : Nat) : List Instr := List.replicate (rem / 64) .nFold4 ++ .nCollapse :: narrowLaneOps (rem % 64)

/-- The wide lanes left, and what follows. -/
def wideLaneOps (rem : Nat) : List Instr := List.replicate (rem / 64) .wFold1 ++ .wHred :: reduceOps (rem % 64)

/-- The wide blocks left, and what follows. -/
def wideBlockOps (rem : Nat) : List Instr := List.replicate (rem / 256) .wFold4 ++ .wCollapse :: wideLaneOps (rem % 256)

/-- The operations of a command from `i` on, one that runs after `PROBE`, with `rem` bytes left. -/
def opsFrom (i : Instr) (rem : Nat) : List Instr :=
  match i with
  | .wInit => .wInit :: wideBlockOps (rem - 256)
  | .wFold4 | .wCollapse => wideBlockOps rem
  | .wFold1 | .wHred => wideLaneOps rem
  | .nInit4 => .nInit4 :: narrowBlockOps (rem - 64)
  | .nFold4 | .nCollapse => narrowBlockOps rem
  | .nInit1 => .nInit1 :: narrowLaneOps (rem - 16)
  | .nFold1 => narrowLaneOps rem
  | .rFold64 => reduceOps rem
  | .rBarrett => .rBarrett :: scalarOps rem
  | .sbyte | .done => scalarOps rem
  | _ => []

/-! Each stretch begins with what its branch of the sequence chooses. -/

theorem scalarOps_of_pos {r : Nat} (h : 1 ≤ r) : scalarOps r = .sbyte :: scalarOps (r - 1) := by
  obtain ⟨n, rfl⟩ := Nat.exists_eq_add_of_le' h
  rfl

/-- A stretch of equal operations, each of which consumes `n` bytes. -/
theorem replicate_div_of_le {n r : Nat} (hn : 0 < n) (h : n ≤ r) (j : Instr) :
    List.replicate (r / n) j = j :: List.replicate ((r - n) / n) j := by
  rw [Nat.div_eq_sub_div hn h, List.replicate_succ]

theorem narrowLaneOps_of_le {r : Nat} (h : 16 ≤ r) : narrowLaneOps r = .nFold1 :: narrowLaneOps (r - 16) := by
  rw [narrowLaneOps, narrowLaneOps, replicate_div_of_le (by decide) h, Nat.mod_eq_sub_mod h, List.cons_append]

theorem narrowLaneOps_of_lt {r : Nat} (h : r < 16) : narrowLaneOps r = reduceOps r := by
  rw [narrowLaneOps, Nat.div_eq_of_lt h, Nat.mod_eq_of_lt h]
  rfl

theorem narrowBlockOps_of_le {r : Nat} (h : 64 ≤ r) : narrowBlockOps r = .nFold4 :: narrowBlockOps (r - 64) := by
  rw [narrowBlockOps, narrowBlockOps, replicate_div_of_le (by decide) h, Nat.mod_eq_sub_mod h, List.cons_append]

theorem narrowBlockOps_of_lt {r : Nat} (h : r < 64) : narrowBlockOps r = .nCollapse :: narrowLaneOps r := by
  rw [narrowBlockOps, Nat.div_eq_of_lt h, Nat.mod_eq_of_lt h]
  rfl

theorem wideLaneOps_of_le {r : Nat} (h : 64 ≤ r) : wideLaneOps r = .wFold1 :: wideLaneOps (r - 64) := by
  rw [wideLaneOps, wideLaneOps, replicate_div_of_le (by decide) h, Nat.mod_eq_sub_mod h, List.cons_append]

theorem wideLaneOps_of_lt {r : Nat} (h : r < 64) : wideLaneOps r = .wHred :: reduceOps r := by
  rw [wideLaneOps, Nat.div_eq_of_lt h, Nat.mod_eq_of_lt h]
  rfl

theorem wideBlockOps_of_le {r : Nat} (h : 256 ≤ r) : wideBlockOps r = .wFold4 :: wideBlockOps (r - 256) := by
  rw [wideBlockOps, wideBlockOps, replicate_div_of_le (by decide) h, Nat.mod_eq_sub_mod h, List.cons_append]

theorem wideBlockOps_of_lt {r : Nat} (h : r < 256) : wideBlockOps r = .wCollapse :: wideLaneOps r := by
  rw [wideBlockOps, Nat.div_eq_of_lt h, Nat.mod_eq_of_lt h]
  rfl

theorem opsFrom_afterScalar (r : Nat) : opsFrom (afterScalar r) r = scalarOps r := by
  unfold afterScalar; split <;> rfl

theorem opsFrom_afterWideBlock (r : Nat) : opsFrom (afterWideBlock r) r = wideBlockOps r := by
  unfold afterWideBlock; split <;> rfl

theorem opsFrom_afterWideLane (r : Nat) : opsFrom (afterWideLane r) r = wideLaneOps r := by
  unfold afterWideLane; split <;> rfl

theorem opsFrom_afterNarrowBlock (r : Nat) : opsFrom (afterNarrowBlock r) r = narrowBlockOps r := by
  unfold afterNarrowBlock; split <;> rfl

theorem opsFrom_afterNarrowLane (r : Nat) : opsFrom (afterNarrowLane r) r = narrowLaneOps r := by
  unfold afterNarrowLane
  split
  · rfl
  · exact (narrowLaneOps_of_lt (by omega)).symm

/-- What is due heads the list, and the list goes on with what follows it. -/
theorem opsFrom_eq_cons (h : phaseAt i s = true) (hafter : runsAfterProbe i = true) (hdone : i ≠ .done) (tier : BitVec 2) :
    opsFrom i s.rem = i :: opsFrom (nextOp i tier (s.rem - bytesRead i)) (s.rem - bytesRead i) := by
  cases i
  case update | probe | done | clmulLL | clmulHL | clmulLH | clmulHH | vclmulLL | vclmulHL | vclmulLH | vclmulHH => contradiction
  all_goals simp only [nextOp, bytesRead, Nat.sub_zero, opsFrom_afterScalar, opsFrom_afterWideBlock, opsFrom_afterWideLane,
    opsFrom_afterNarrowBlock, opsFrom_afterNarrowLane]
  case wInit | nInit4 | nInit1 | rFold64 | rBarrett => rfl
  case sbyte =>
    obtain ⟨-, -, hrem⟩ := of_decide_eq_true h
    exact scalarOps_of_pos hrem
  case wFold4 =>
    obtain ⟨-, -, -, hrem⟩ := of_decide_eq_true h
    exact wideBlockOps_of_le hrem
  case wCollapse =>
    obtain ⟨-, -, -, hrem⟩ := of_decide_eq_true h
    exact wideBlockOps_of_lt hrem
  case wFold1 =>
    obtain ⟨-, -, -, hrem, -⟩ := of_decide_eq_true h
    exact wideLaneOps_of_le hrem
  case wHred =>
    obtain ⟨-, -, -, hrem⟩ := of_decide_eq_true h
    exact wideLaneOps_of_lt hrem
  case nFold4 =>
    obtain ⟨-, -, -, hrem⟩ := of_decide_eq_true h
    exact narrowBlockOps_of_le hrem
  case nCollapse =>
    obtain ⟨-, -, -, hrem⟩ := of_decide_eq_true h
    exact narrowBlockOps_of_lt hrem
  case nFold1 =>
    obtain ⟨-, -, -, hrem⟩ := of_decide_eq_true h
    exact narrowLaneOps_of_le hrem

theorem opsFrom_ne_nil (hafter : runsAfterProbe i = true) (r : Nat) : opsFrom i r ≠ [] := by
  cases i
  case update | probe | clmulLL | clmulHL | clmulLH | clmulHH | vclmulLL | vclmulHL | vclmulLH | vclmulHH => contradiction
  all_goals simp [opsFrom, wideBlockOps, wideLaneOps, narrowBlockOps, narrowLaneOps, reduceOps, scalarOps]

/-- The table of rule R202 is `UPDATE`, `PROBE` and the operations from `PROBE`'s choice on, where the bytes are enough for the tier. -/
theorem operationSequence_eq_opsFrom {tier : BitVec 2} {n : Nat} (hvector : tier ≠ tierNone → 16 ≤ n)
    (hwide : tier = tierWide → 256 ≤ n) :
    operationSequence tier n = .update :: .probe :: opsFrom (afterProbe tier n) n := by
  by_cases hnone : tier = tierNone
  · subst hnone
    rw [operationSequence_none, afterProbe_none, opsFrom_afterScalar]
    rfl
  have hlane := hvector hnone
  rw [operationSequence, if_neg hnone, afterProbe, if_neg hnone]
  by_cases hw : tier = tierWide
  · have hblock := hwide hw
    have hparts : (n - 256) / 256 = n / 256 - 1 ∧ (n - 256) % 256 = n % 256 ∧ n % 256 % 64 = n % 64 := by omega
    rw [if_pos hw, if_pos hw, opsFrom, wideBlockOps, wideLaneOps, hparts.1, hparts.2.1, hparts.2.2]
    simp [reduceOps, scalarOps]
  · rw [if_neg hw, if_neg hw, narrowBulkMin]
    rcases Nat.lt_or_ge n 128 with hshort | hbulk
    · have hparts : (n - 16) / 16 = n / 16 - 1 ∧ (n - 16) % 16 = n % 16 := by omega
      rw [if_pos hshort, if_neg (Nat.not_le.2 hshort), opsFrom, narrowLaneOps, hparts.1, hparts.2]
      simp [reduceOps, scalarOps]
    · have hparts : (n - 64) / 64 = n / 64 - 1 ∧ (n - 64) % 64 = n % 64 ∧ n % 64 % 16 = n % 16 := by omega
      rw [if_neg (Nat.not_lt.2 hbulk), if_pos hbulk, opsFrom, narrowBlockOps, narrowLaneOps, hparts.1, hparts.2.1, hparts.2.2]
      simp [reduceOps, scalarOps]

/-- The bound of rule R203, from `PROBE`'s choice on. -/
theorem opsLeft_afterProbe_le (tier : BitVec 2) (n : Nat) : opsLeft (afterProbe tier n) n ≤ n + 6 := by
  unfold afterProbe
  split_ifs <;> simp only [opsLeft] <;> omega

/-! ### The tier's lanes -/

/-- The bytes of a lane of the tier (rules R22, R150, R130). -/
def laneBytes (tier : BitVec 2) : Nat := if tier = tierWide then 64 else 16

theorem WideOk.laneBytes (h : WideOk s) : laneBytes s.tier = 64 := if_pos h.1

theorem NarrowOk.laneBytes (h : NarrowOk s) : laneBytes s.tier = 16 := by
  rw [h.1]; rfl

/-- A vector operation reads whole lanes. -/
theorem laneBytes_dvd_bytesRead (h : phaseAt i s = true) (hv : isVector i = true) : laneBytes s.tier ∣ bytesRead i := by
  cases i
  case wInit | wFold4 | wCollapse | wFold1 | wHred =>
    obtain ⟨-, hwide, -⟩ := of_decide_eq_true h
    rw [WideOk.laneBytes hwide]
    decide
  case nInit4 | nFold4 | nCollapse | nInit1 | nFold1 =>
    obtain ⟨-, hnarrow, -⟩ := of_decide_eq_true h
    rw [NarrowOk.laneBytes hnarrow]
    decide
  case rFold64 | rBarrett => exact dvd_zero _
  all_goals contradiction

/-- No vector operation follows the scalar engine's. -/
theorem isVector_of_nextOp (hafter : runsAfterProbe i = true) {tier : BitVec 2} {r : Nat} (h : isVector (nextOp i tier r) = true) :
    isVector i = true := by
  cases i
  case sbyte =>
    rw [nextOp, afterScalar] at h
    split at h <;> cases h
  case done => cases h
  all_goals exact hafter

theorem writesTier_of_runsAfterProbe (hafter : runsAfterProbe i = true) (hdone : i ≠ .done) : writesTier i = false := by
  cases i
  case update | probe | done => contradiction
  all_goals decide

/-! ### A command under way -/

/-- The operation `i`, one that runs after `PROBE`, is due in a command of `len` bytes under `tier`; before a vector operation whole lanes
have been consumed. -/
structure Underway (tier : BitVec 2) (len : Nat) (i : Instr) (s : State) : Prop where
  after : runsAfterProbe i = true
  op : s.op = i.code
  port : s.mul.word = none
  due : phaseAt i s = true
  tier : s.tier = tier
  len : s.len = len
  lanes : isVector i = true → laneBytes s.tier ∣ s.pos

section
variable {tier : BitVec 2} {len : Nat}

theorem Underway.precondition (h : Underway tier len i s) : Precondition i s :=
  precondition_of_phaseAt (fun hupdate => absurd hupdate (ne_update_of_runsAfterProbe h.after)) h.due

theorem Underway.step_eq (h : Underway tier len i s) : step s = .next (effect i s) :=
  (step_eq_exec h.op (format_of_runsAfterProbe h.after) h.port).trans (exec_eq_next.2 ⟨h.precondition, rfl⟩)

theorem Underway.rem_effect (h : Underway tier len i s) (hdone : i ≠ .done) : (effect i s).rem = s.rem - bytesRead i := by
  have hends := endsCommand_of_runsAfterProbe h.after hdone
  obtain ⟨-, ⟨-, -, hrem, -⟩, -⟩ := exec_next_inside hends (exec_eq_next.2 ⟨h.precondition, rfl⟩)
  exact hrem

/-- Every operation but `DONE` leaves the command under way, with what follows it due. -/
theorem Underway.next (h : Underway tier len i s) (hdone : i ≠ .done) :
    Underway tier len (nextOp i tier (effect i s).rem) (effect i s) := by
  have hformat := format_of_runsAfterProbe h.after
  have hends := endsCommand_of_runsAfterProbe h.after hdone
  have hexec : exec i s = .next (effect i s) := exec_eq_next.2 ⟨h.precondition, rfl⟩
  have htier : (effect i s).tier = s.tier := effect_tier (writesTier_of_runsAfterProbe h.after hdone)
  obtain ⟨hop, -, hmul⟩ := exec_next_transfer hformat hends hexec
  obtain ⟨-, ⟨-, hpos, -, hlen⟩, -⟩ := exec_next_inside hends hexec
  have hdue := phaseAt_effect h.precondition hformat hends h.due
  rw [htier, h.tier] at hop hdue
  refine ⟨runsAfterProbe_nextOp h.after hdone _ _, hop, hmul ▸ h.port, hdue, htier.trans h.tier, hlen.trans h.len, fun hv => ?_⟩
  have hvector := isVector_of_nextOp h.after hv
  rw [htier, hpos]
  exact dvd_add (h.lanes hvector) (laneBytes_dvd_bytesRead h.due hvector)

/-- A command under way runs the operations left and ends in `IDLE`. The induction is over the list of them. -/
theorem Underway.completes (h : Underway tier len i s) : ∃ t, Completes (opsFrom i s.rem) s t ∧ t.op = Instr.code .update := by
  induction hl : opsFrom i s.rem generalizing i s with
  | nil => exact absurd hl (opsFrom_ne_nil h.after _)
  | cons j l ih =>
    by_cases hdone : i = .done
    · subst hdone
      obtain ⟨-, -, hrem⟩ := of_decide_eq_true h.due
      rw [hrem] at hl
      exact ⟨s.delivered, hl ▸ .single h.op rfl h.step_eq, rfl⟩
    · have hcons := opsFrom_eq_cons h.due h.after hdone tier
      rw [← h.rem_effect hdone, hl, List.cons.injEq] at hcons
      obtain ⟨rfl, hrest⟩ := hcons
      obtain ⟨t, hcompletes, hidle⟩ := ih (h.next hdone) hrest.symm
      exact ⟨t, .cons h.op (format_of_runsAfterProbe h.after) h.step_eq hcompletes, hidle⟩

/-- Within the operations left a run leads to a command still under way. -/
theorem Underway.of_run (h : Underway tier len i s) {n : Nat} (hn : n < opsLeft i s.rem) (hrun : core.run n s = .next t) :
    ∃ j, Underway tier len j t := by
  induction n generalizing i s with
  | zero =>
    obtain rfl : s = t := Host.Outcome.next.inj hrun
    exact ⟨i, h⟩
  | succ n ih =>
    have hdone : i ≠ .done := by
      rintro rfl
      exact absurd hn (Nat.not_lt.2 (Nat.le_add_left 1 n))
    rw [run_succ_of_step n h.step_eq] at hrun
    refine ih (h.next hdone) ?_ hrun
    have hleft := opsLeft_nextOp h.after hdone tier (effect i s).rem
    rw [h.rem_effect hdone, Nat.sub_add_cancel ((bytesRead_le_bytesRequired i).trans (bytesRequired_le_of_phaseAt h.due))] at hleft
    rw [h.rem_effect hdone]
    omega

/-- Whole lanes with less than a lane left over are all the whole lanes there are. -/
theorem eq_mul_div_of_dvd {n pos rem len : Nat} (hdvd : n ∣ pos) (hrem : rem < n) (hlen : pos + rem = len) : pos = n * (len / n) := by
  obtain ⟨q, rfl⟩ := hdvd
  rw [← hlen, Nat.mul_add_div (Nat.zero_lt_of_lt hrem), Nat.div_eq_of_lt hrem, Nat.add_zero]

/-- When `R.BARRETT` is reached the whole lanes of the tier are consumed. -/
theorem Underway.pos_of_barrett (h : Underway tier len .rBarrett s) :
    s.pos = if tier = tierWide then 64 * (len / 64) else 16 * (len / 16) := by
  have hdvd := h.lanes rfl
  obtain ⟨hcursor, hreduce, -⟩ := of_decide_eq_true h.due
  rw [CursorOk, h.len] at hcursor
  obtain ⟨hwide, hrem⟩ | ⟨hnarrow, hrem⟩ := hreduce
  · have htier : tier = tierWide := h.tier ▸ hwide.1
    rw [WideOk.laneBytes hwide] at hdvd
    rw [if_pos htier]
    exact eq_mul_div_of_dvd hdvd hrem hcursor
  · have htier : tier ≠ tierWide := by rw [← h.tier, hnarrow.1]; decide
    rw [NarrowOk.laneBytes hnarrow] at hdvd
    rw [if_neg htier]
    exact eq_mul_div_of_dvd hdvd hrem hcursor

end

/-! ### The command from its first operation on -/

section
variable {c : Command}

/-- After `UPDATE` and `PROBE` a command the host may present is under way. -/
theorem underway_of_ready (h : CommandReady s c) :
    Underway (commandTier s c) c.len (afterProbe (commandTier s c) c.len) (s.accept c).probed := by
  obtain ⟨-, hport, -, -, htruth⟩ := h
  have hdue : phaseAt .probe (s.accept c) = true := decide_eq_true ⟨rfl, rfl, htruth⟩
  exact ⟨runsAfterProbe_afterProbe _ _, rfl, hport, phaseAt_probed hdue, rfl, rfl, fun _ => dvd_zero _⟩

/-- The bytes of a command are enough for the tier `PROBE` selects. -/
theorem sixteen_le_of_commandTier (hne : commandTier s c ≠ tierNone) : 16 ≤ c.len :=
  (sixteen_le_minVecBytes _).trans (minVecBytes_le_of_selectTier_ne_none hne)

theorem block_le_of_commandTier (hwide : commandTier s c = tierWide) : 256 ≤ c.len :=
  (le_wideMinBytes _).trans (wideMinBytes_le_of_selectTier_eq_wide hwide)

theorem step_of_ready (h : CommandReady s c) : step s = .next (s.accept c) := by
  obtain ⟨hop, hport, hhost, hfits, -⟩ := h
  exact step_of_code hop rfl hport (exec_update_of_fits hop hhost hfits)

theorem step_accept (h : CommandReady s c) : step (s.accept c) = .next (s.accept c).probed :=
  step_of_code (i := .probe) rfl rfl h.2.1 (exec_probe _)

/-- A command the host may present runs the operations of the table and ends in `IDLE` (rules R195, R202). -/
theorem completes_of_ready (h : CommandReady s c) :
    ∃ t, Completes (operationSequence (commandTier s c) c.len) s t ∧ t.op = Instr.code .update := by
  obtain ⟨t, hcompletes, hidle⟩ := (underway_of_ready h).completes
  refine ⟨t, ?_, hidle⟩
  rw [operationSequence_eq_opsFrom sixteen_le_of_commandTier block_le_of_commandTier]
  exact .cons h.1 rfl (step_of_ready h) (.cons rfl rfl (step_accept h) hcompletes)

theorem operationCount_of_ready (s : State) (c : Command) :
    operationCount (commandTier s c) c.len = opsLeft (afterProbe (commandTier s c) c.len) c.len + 2 :=
  operationCount_eq_opsLeft sixteen_le_of_commandTier block_le_of_commandTier

/-- Wherever a command stands with `R.BARRETT` due, the whole lanes of its tier are consumed. -/
theorem pos_of_barrett_of_ready (h : CommandReady s c) {n : Nat} (hn : n < operationCount (commandTier s c) c.len)
    (hrun : core.run n s = .next t) (hop : t.op = Instr.code .rBarrett) :
    t.pos = if commandTier s c = tierWide then 64 * (c.len / 64) else 16 * (c.len / 16) := by
  rw [operationCount_of_ready] at hn
  match n with
  | 0 =>
    obtain rfl : s = t := Host.Outcome.next.inj hrun
    exact absurd (h.1.symm.trans hop) (by decide)
  | 1 =>
    rw [run_succ_of_step 0 (step_of_ready h)] at hrun
    obtain rfl : s.accept c = t := Host.Outcome.next.inj hrun
    exact absurd (show Instr.code .probe = Instr.code .rBarrett from hop) (by decide)
  | n + 2 =>
    rw [run_succ_of_step _ (step_of_ready h), run_succ_of_step _ (step_accept h)] at hrun
    obtain ⟨j, hj⟩ := (underway_of_ready h).of_run (n := n) (Nat.lt_of_add_lt_add_right hn) hrun
    obtain rfl : j = .rBarrett := code_injective (format_of_runsAfterProbe hj.after) rfl (hj.op.symm.trans hop)
    exact hj.pos_of_barrett

end

/-! ### The statements -/

/-- Settles O55: the command completes, and a command that completes delivers the scalar CRC. -/
theorem commandDeliversScalarCrc : Obligations.CommandDeliversScalarCrc := by
  unfold Obligations.CommandDeliversScalarCrc
  intro s c h
  obtain ⟨t, hcompletes, hidle⟩ := completes_of_ready h
  have hends : CommandEndsIn s c t := hcompletes.run_eq
  exact ⟨t, hends, hidle, crcOut_of_commandEndsIn h hends⟩

/-- Settles O56: the operations completed are the trace, and their number is counted from `PROBE`'s choice on. -/
theorem commandRunsItsSequence : Obligations.CommandRunsItsSequence := by
  unfold Obligations.CommandRunsItsSequence
  intro s c h
  obtain ⟨t, hcompletes, hidle⟩ := completes_of_ready h
  refine ⟨hcompletes.trace_eq, ?_, fun n t hn hrun hop => pos_of_barrett_of_ready h hn hrun hop, t, hcompletes.run_eq, hidle⟩
  rw [operationCount_of_ready]
  exact Nat.add_le_add_right (opsLeft_afterProbe_le _ _) 2

/-- Settles O58: both commands deliver the scalar CRC of the same bytes from the same value. -/
theorem tierEquivalence : Obligations.TierEquivalence := by
  unfold Obligations.TierEquivalence
  intro s s' t t' c c' h h' hends hends' hcrc hlen hbytes
  rw [crcOut_of_commandEndsIn h hends, crcOut_of_commandEndsIn h' hends', hcrc, hbytes]

end Sys2Proof.Machine
end

section
/-! PROOFS. The word and the step (30_encoding.md rules R70, R76, 46_orchestrator.md rule R190): a reserved word is refused wherever it stands,
and a step is the operation the word decodes to, after the multiplier command on the port if there is one. -/

namespace Sys2Proof.Machine

variable {s t : State} {i : Instr} {w : U8} {e : DecodeError}

/-! ### Words -/

/-- Settles O2: the word of an operation decodes to it, and only that word does. -/
theorem decodeEncodeAgree : Obligations.DecodeEncodeAgree := by
  unfold Obligations.DecodeEncodeAgree
  refine ⟨fun i rest _ => ?_, fun w i h => encodeWord_of_decodeWord h⟩
  simp only [encode, List.singleton_append, decode, decodeWord_encodeWord]

/-- The reserved words are the words of no operation (rule R76). -/
theorem encodeWord_not_reserved (i : Instr) : ¬((0x04 ≤ (encodeWord i).toNat ∧ (encodeWord i).toNat ≤ 0x07) ∨
    (0x0D ≤ (encodeWord i).toNat ∧ (encodeWord i).toNat ≤ 0x0F) ∨ (0x15 ≤ (encodeWord i).toNat ∧ (encodeWord i).toNat ≤ 0x17) ∨
    (0x1A ≤ (encodeWord i).toNat ∧ (encodeWord i).toNat ≤ 0x1F) ∨ 0x28 ≤ (encodeWord i).toNat) := by
  cases i <;> decide

/-! ### What the port and the code in `OP` do -/

theorem runOperation_of_ok (h : decodeWord (fetchWord s) = .ok i) : runOperation s = exec i s := by
  simp only [runOperation, fetchInstr, h]

theorem runOperation_of_error (h : decodeWord (fetchWord s) = .error e) : runOperation s = .refused (.reservedWord (fetchWord s) e) := by
  simp only [runOperation, fetchInstr, h]

theorem step_of_portInstr_error {r : Refusal} (h : s.mul.word = some w) (hr : portInstr w = .error r) : step s = .refused r := by
  simp only [step, sequencerStep, runPort, h, hr, followedBy]

/-- A multiplier command leaves everything but the port (rule R75). -/
theorem effect_eq_with_mul (hi : i.format = .m) : effect i s = { s with mul := (effect i s).mul } := by
  cases i
  case clmulLL | clmulHL | clmulLH | clmulHH | vclmulLL | vclmulHL | vclmulLH | vclmulHH => rfl
  all_goals contradiction

/-- A multiplier command reads no accumulator, so it does not fault. -/
theorem exec_ne_fault_of_format_m {f : Fault} (hi : i.format = .m) : exec i s ≠ .fault f := by
  intro h
  obtain ⟨-, -, -, -, -, hunready⟩ := (exec_faults_iff i s).1 ⟨f, h⟩
  cases i
  case clmulLL | clmulHL | clmulLH | clmulHH | vclmulLL | vclmulHL | vclmulLH | vclmulHH => cases hunready
  all_goals contradiction

/-- What the port can do: nothing but to its own fields, or refuse. -/
theorem runPort_cases (s : State) : (∃ m, runPort s = .next m ∧ m = { s with mul := m.mul }) ∨ ∃ r, runPort s = .refused r := by
  cases hword : s.mul.word with
  | none => exact .inl ⟨s, by simp only [runPort, hword], rfl⟩
  | some w =>
    cases hport : portInstr w with
    | error r => exact .inr ⟨r, by simp only [runPort, hword, hport]⟩
    | ok i =>
      obtain ⟨-, hi⟩ := portInstr_eq_ok.1 hport
      have hrun : runPort s = exec i s := by simp only [runPort, hword, hport]
      rw [hrun]
      cases hexec : exec i s with
      | next m =>
        obtain ⟨-, rfl⟩ := exec_eq_next.1 hexec
        exact .inl ⟨_, rfl, effect_eq_with_mul hi⟩
      | fault f => exact absurd hexec (exec_ne_fault_of_format_m hi)
      | refused r => exact .inr ⟨r, rfl⟩

/-- A state whose `OP` holds a reserved code refuses, whatever stands on the port. -/
theorem step_refused_of_reserved (h : decodeWord (fetchWord s) = .error e) : ∃ r, step s = .refused r := by
  obtain ⟨m, hport, hm⟩ | ⟨r, hport⟩ := runPort_cases s
  · have hfetch : fetchWord m = fetchWord s := by rw [hm]; rfl
    have hstep : step s = runOperation m := by simp only [step, sequencerStep, hport, followedBy]
    exact ⟨_, hstep.trans (runOperation_of_error (hfetch ▸ h))⟩
  · exact ⟨r, by simp only [step, sequencerStep, hport, followedBy]⟩

/-- Every operation that completes leaves an assigned code in `OP` if one was there, and puts no word on the port. -/
theorem exec_next_assigned (h : exec i s = .next t) :
    ((∃ j, decodeS s.op = .ok j) → ∃ j, decodeS t.op = .ok j) ∧ (t.mul.word = s.mul.word ∨ t.mul.word = none) := by
  have heffect := exec_eq_next.1 h
  cases hi : i.format with
  | s =>
    refine ⟨fun hassigned => ?_, .inl (by rw [← heffect.2, effect_mul hi])⟩
    obtain ⟨-, -, rfl⟩ | ⟨hop, -⟩ := exec_next_row hi h
    · exact hassigned
    · exact ⟨_, hop ▸ decodeS_code (nextOp_format hi _ _)⟩
  | m =>
    obtain ⟨-, rfl⟩ := heffect
    obtain ⟨hop, hword, -⟩ := effect_of_format_m (s := s) hi
    exact ⟨fun hassigned => hop ▸ hassigned, .inr hword⟩

/-- Settles O3: a word that decodes is the word of an operation, which no reserved word is. -/
theorem reservedWordsRefused : Obligations.ReservedWordsRefused := by
  unfold Obligations.ReservedWordsRefused
  refine ⟨fun w hw => ?_, fun i s t h => exec_next_assigned h, fun w w' i h h' => ?_⟩
  · cases hdecode : decodeWord w with
    | ok i => exact absurd hw (decodeWord_eq_ok.1 hdecode ▸ encodeWord_not_reserved i)
    | error e =>
      refine ⟨e, rfl, fun s hs => step_refused_of_reserved (hs ▸ hdecode), fun s hport hs => ?_, fun s hport => ?_⟩
      · subst hs
        rw [step_of_none hport, runOperation_of_error hdecode]
      · exact step_of_portInstr_error hport (by simp only [portInstr, hdecode])
  · rw [decodeWord_eq_ok.1 h, decodeWord_eq_ok.1 h']

/-! ### A step -/

theorem fieldClass_of_format_s (hi : i.format = .s) : fieldClass (encodeWord i) = 0#3 := by
  cases i
  case clmulLL | clmulHL | clmulLH | clmulHH | vclmulLL | vclmulHL | vclmulLH | vclmulHH => contradiction
  all_goals decide

theorem fieldClass_of_format_m (hi : i.format = .m) : fieldClass (encodeWord i) ≠ 0#3 := by
  cases i
  case clmulLL | clmulHL | clmulLH | clmulHH | vclmulLL | vclmulHL | vclmulLH | vclmulHH => decide
  all_goals contradiction

/-- A word of the table placed for the host is its operation's, in the state made ready for it (log entry 14). -/
theorem withFetchWord_encodeWord (s : State) (i : Instr) :
    s.withFetchWord 8 (encodeWord i).toNat = (s.readyFor i).placeWord (encodeWord i) := by
  have hdecode : decodeTableWord 8 (encodeWord i).toNat = some i := by cases i <;> decide
  rw [State.withFetchWord, hdecode, BitVec.ofNat_toNat, BitVec.setWidth_eq]

/-- In `IDLE` with no command presented `UPDATE` changes nothing (rule R191). -/
theorem exec_update_idle (hop : s.op = Instr.code .update) (hhost : s.host = none) : exec .update s = .next s := by
  refine exec_eq_next.2 ⟨precondition_of_phaseAt (fun _ => ⟨hop, ?_⟩) rfl, ?_⟩
  · simp only [hostFits, hhost]
  · simp only [effect, hhost, Option.elim]

theorem runOperation_idle (hop : s.op = Instr.code .update) (hhost : s.host = none) : runOperation s = .next s :=
  runOperation_eq_next.2 ⟨.update, hop ▸ decodeS_code rfl, exec_update_idle hop hhost⟩

/-- A placed word is what the next step executes: in `OP` it is the step's operation, on the port it is executed before an idle one. -/
theorem step_placeWord (s : State) (i : Instr) : step (s.placeWord (encodeWord i)) = exec i (s.placeWord (encodeWord i)) := by
  cases hi : i.format with
  | s =>
    rw [State.placeWord, if_pos (fieldClass_of_format_s hi)]
    exact step_eq_exec rfl hi rfl
  | m =>
    rw [State.placeWord, if_neg (fieldClass_of_format_m hi), step_of_some rfl (portInstr_eq_ok.2 ⟨decodeWord_encodeWord i, hi⟩)]
    cases hexec : exec i { s with op := Instr.code .update, host := none, mul := { s.mul with word := some (encodeWord i) } } with
    | next t =>
      obtain ⟨-, rfl⟩ := exec_eq_next.1 hexec
      rw [effect_eq_with_mul hi]
      exact runOperation_idle rfl rfl
    | fault f => rfl
    | refused r => rfl

/-- After a multiplier command the operation `OP` names is the one it named before. -/
theorem followedBy_runOperation {m : Instr} (hm : m.format = .m) (hi : decodeWord (fetchWord s) = .ok i) :
    followedBy (exec m s) runOperation = followedBy (exec m s) (exec i) := by
  cases hexec : exec m s with
  | next t =>
    obtain ⟨-, rfl⟩ := exec_eq_next.1 hexec
    obtain ⟨hop, -⟩ := effect_of_format_m (s := s) hm
    exact runOperation_of_ok (by rw [fetchWord, hop]; exact hi)
  | fault f => rfl
  | refused r => rfl

/-- Settles O4: the port's part by what it can do, the operation by the code in `OP`. -/
theorem stepRunsDecodedOperation : Obligations.StepRunsDecodedOperation := by
  unfold Obligations.StepRunsDecodedOperation
  refine ⟨fun s i hport hi _ => ?_, fun s => rfl, fun s t h => ?_, fun s w m i hport hw hm hi => ?_, fun s w i hport hw hi => ?_,
    fun s i => ?_⟩
  · rw [step_of_none hport, runOperation_of_ok hi]
  · obtain ⟨m, hport, i, hi, hexec⟩ := step_eq_next.1 h
    obtain ⟨m', hport', hm⟩ | ⟨r, hport'⟩ := runPort_cases s
    · obtain rfl : m = m' := Host.Outcome.next.inj (hport.symm.trans hport')
      obtain ⟨hformat, hop⟩ := decodeS_eq_ok.1 hi
      exact ⟨i, m, hformat, by rw [← hop, hm], hm, hexec⟩
    · cases hport.symm.trans hport'
  · rw [step_of_some hport (portInstr_eq_ok.2 ⟨hw, hm⟩), followedBy_runOperation hm hi]
  · exact step_of_portInstr_error hport (by simp only [portInstr, hw, hi, reduceCtorEq, if_false])
  · rw [withFetchWord_encodeWord]
    exact step_placeWord _ i

end Sys2Proof.Machine
end

section
/-! PROOFS. The scalar function as a polynomial remainder (40_scalar.md rule R93): a single-bit step is multiplication by `X` modulo `P` in
reflected order, so a byte is multiplication by `X ^ 8` with the byte added at the top. -/

namespace Sys2Proof.Machine

open Polynomial

/-! ### Splitting, linearity and the seed (rule R93 (a) to (c)) -/

/-- Settles O19: (c) is the seed's own four bytes, XORed in by linearity. -/
theorem scalarSplitsAndIsLinear : Obligations.ScalarSplitsAndIsLinear := by
  unfold Obligations.ScalarSplitsAndIsLinear
  refine ⟨fun c a b => (scalar_append c a b).symm, fun c d a b h => scalar_xor c d h, fun c b0 b1 b2 b3 rest => ?_⟩
  have hseed : scalar 0 (leBytes 4 c) = bitSteps 32 c := by
    simpa using scalar_leBytes_seed (w := 32) (n := 4) (Nat.le_refl _) (Nat.le_refl _) c
  have hfour : scalar c [b0, b1, b2, b3] = scalar 0 (List.zipWith (· ^^^ ·) [b0, b1, b2, b3] (leBytes 4 c)) := by
    have hlinear : scalar 0 (List.zipWith (· ^^^ ·) [b0, b1, b2, b3] (leBytes 4 c)) = scalar 0 [b0, b1, b2, b3] ^^^ scalar 0 (leBytes 4 c) :=
      scalar_xor 0 0 rfl
    rw [scalar_eq_xor, hlinear, hseed, BitVec.xor_comm]
    rfl
  exact (scalar_append c [b0, b1, b2, b3] rest).trans ((congrArg (scalar · rest) hfour).trans (scalar_append 0 _ rest).symm)

/-! ### Reflected order (20_memory.md section 2) -/

section
variable {w : Nat}

/-- The polynomial of a word in reflected order: bit 0 has the highest power. -/
noncomputable def reflectedPoly (v : BitVec w) : (ZMod 2)[X] :=
  ∑ i ∈ Finset.range w, if v.getLsbD i = true then X ^ (w - 1 - i) else 0

theorem reflectedPoly_eq_bitPoly_reverse (v : BitVec w) : reflectedPoly v = bitPoly v.reverse := by
  rw [bitPoly, ← Finset.sum_range_reflect]
  refine Finset.sum_congr rfl fun i hi => ?_
  have hlt := Finset.mem_range.1 hi
  have hplace : w - 1 - i < w ∧ w - 1 - (w - 1 - i) = i := by omega
  rw [BitVec.getLsbD_reverse, BitVec.getMsbD, hplace.2, decide_eq_true hplace.1, Bool.true_and]

end

theorem reflectedPoly_xor (u v : U32) : reflectedPoly (u ^^^ v) = reflectedPoly u + reflectedPoly v := by
  simp only [reflectedPoly_eq_bitPoly_reverse, reverse_xor, bitPoly_xor]

/-- The bits of a byte stand at the top of a zero-extended word. -/
theorem reflectedPoly_setWidth (b : U8) : reflectedPoly (b.setWidth 32 : U32) = reflectedPoly b * X ^ 24 := by
  have hbit (i : Nat) (hi : i < 32) : (b.setWidth 32).getLsbD i = b.getLsbD i := by simp [hi]
  have hhigh : ∀ i ∈ Finset.range 32, i ∉ Finset.range 8 →
      (if (b.setWidth 32).getLsbD i = true then (X : (ZMod 2)[X]) ^ (32 - 1 - i) else 0) = 0 := by
    intro i hi hge
    rw [hbit i (Finset.mem_range.1 hi), BitVec.getLsbD_of_ge b i (by simpa using hge), if_neg (by decide)]
  rw [reflectedPoly, ← Finset.sum_subset (Finset.range_mono (by decide)) hhigh, reflectedPoly, Finset.sum_mul]
  refine Finset.sum_congr rfl fun i hi => ?_
  have hlt := Finset.mem_range.1 hi
  have hpower : 32 - 1 - i = 8 - 1 - i + 24 := by omega
  rw [hbit i (by omega), hpower, pow_add, ite_mul, zero_mul]

/-! ### The modulus (rule R2) -/

/-- `P`, with its leading term. -/
noncomputable def generator : (ZMod 2)[X] := X ^ 32 + bitPoly polyNormal

theorem degree_bitPoly_lt {w : Nat} (v : BitVec w) : (bitPoly v).degree < w :=
  (degree_lt_iff_coeff_zero _ _).2 fun k hk => (coeff_bitPoly_eq_zero v k).2 (BitVec.getLsbD_of_ge v k hk)

theorem generator_monic : generator.Monic := monic_X_pow_add (degree_bitPoly_lt _)

theorem generator_degree : generator.degree = (32 : Nat) := by
  rw [generator, degree_add_eq_left_of_degree_lt (by rw [degree_X_pow]; exact degree_bitPoly_lt _), degree_X_pow]

theorem generator_eq : generator = X ^ 32 + X ^ 26 + X ^ 23 + X ^ 22 + X ^ 16 + X ^ 12 + X ^ 11 + X ^ 10 + X ^ 8 + X ^ 7 + X ^ 5 + X ^ 4 +
    X ^ 2 + X + 1 := by
  simp [generator, bitPoly, polyNormal, Finset.sum_range_succ]
  ring

/-! ### A single-bit step, a byte and a message -/

/-- Multiplication by `X` moves the top bit to the power 32. -/
theorem bitPoly_mul_X (r : U32) : bitPoly r * X = bitPoly (r <<< 1) + if r.getLsbD 31 = true then X ^ 32 else 0 := by
  ext k
  rw [coeff_add, coeff_bitPoly, BitVec.getLsbD_shiftLeft, apply_ite (coeff · k), coeff_X_pow, coeff_zero]
  cases k with
  | zero => simp
  | succ k =>
    rw [coeff_mul_X, coeff_bitPoly]
    rcases Nat.lt_trichotomy k 31 with hk | rfl | hk
    · have hrange : k + 1 < 32 ∧ k ≠ 31 := by omega
      simp [hrange]
    · simp
    · have hrange : ¬ k + 1 < 32 ∧ k ≠ 31 := by omega
      simp [hrange, BitVec.getLsbD_of_ge r k hk]

/-- `mulX` is multiplication by `X` modulo `P` (rule R9). -/
theorem mk_bitPoly_mulX (r : U32) : AdjoinRoot.mk generator (bitPoly (mulX r)) = AdjoinRoot.mk generator (bitPoly r * X) := by
  rw [bitPoly_mul_X, mulX]
  split
  · rw [AdjoinRoot.mk_eq_mk, bitPoly_xor, add_sub_add_left_eq_sub, CharTwo.sub_eq_add, add_comm]
    exact dvd_refl _
  · rw [add_zero]

theorem mk_reflectedPoly_bitSteps (n : Nat) (r : U32) :
    AdjoinRoot.mk generator (reflectedPoly (bitSteps n r)) = AdjoinRoot.mk generator (reflectedPoly r * X ^ n) := by
  induction n generalizing r with
  | zero => rw [pow_zero, mul_one]; rfl
  | succ n ih =>
    have hstep : AdjoinRoot.mk generator (reflectedPoly (bitStep r)) = AdjoinRoot.mk generator (reflectedPoly r * X) := by
      have hreverse : (bitStep r).reverse = mulX r.reverse := by
        rw [← BitVec.reverse_reverse_eq (x := mulX r.reverse), reverse_mulX, BitVec.reverse_reverse_eq]
      rw [reflectedPoly_eq_bitPoly_reverse, hreverse, mk_bitPoly_mulX, reflectedPoly_eq_bitPoly_reverse]
    rw [bitSteps, ih, map_mul, hstep, ← map_mul, mul_assoc, ← pow_succ']

/-- A byte multiplies by `X ^ 8` and is added at the top. -/
theorem mk_reflectedPoly_crcStep (c : U32) (b : U8) : AdjoinRoot.mk generator (reflectedPoly (crcStep c b)) =
    AdjoinRoot.mk generator (reflectedPoly c * X ^ 8 + reflectedPoly b * X ^ 32) := by
  rw [crcStep_eq_bitSteps, mk_reflectedPoly_bitSteps, reflectedPoly_xor, reflectedPoly_setWidth, add_mul, mul_assoc, ← pow_add]

/-- The polynomial of a message, the first byte with the highest powers (rule R93 (d)). -/
noncomputable def messagePoly (m : List U8) : (ZMod 2)[X] :=
  ∑ j ∈ Finset.range m.length, ∑ i ∈ Finset.range 8,
    if (m.getD j 0).getLsbD i = true then X ^ (8 * m.length - 1 - (8 * j + i)) else 0

theorem messagePoly_cons (b : U8) (m : List U8) : messagePoly (b :: m) = reflectedPoly b * X ^ (8 * m.length) + messagePoly m := by
  rw [messagePoly, List.length_cons, Finset.sum_range_succ', add_comm, messagePoly]
  congr 1
  · rw [reflectedPoly, Finset.sum_mul]
    refine Finset.sum_congr rfl fun i hi => ?_
    have hlt := Finset.mem_range.1 hi
    have hpower : 8 * (m.length + 1) - 1 - (8 * 0 + i) = 8 - 1 - i + 8 * m.length := by omega
    rw [hpower, pow_add, ite_mul, zero_mul]
    rfl
  · refine Finset.sum_congr rfl fun j _ => Finset.sum_congr rfl fun i _ => ?_
    have hpower : 8 * (m.length + 1) - 1 - (8 * (j + 1) + i) = 8 * m.length - 1 - (8 * j + i) := by omega
    rw [hpower]
    rfl

/-- Modulo `P`, the seed times a power of `X` and the message. -/
theorem mk_reflectedPoly_scalar (c : U32) (m : List U8) : AdjoinRoot.mk generator (reflectedPoly (scalar c m)) =
    AdjoinRoot.mk generator (reflectedPoly c * X ^ (8 * m.length) + messagePoly m * X ^ 32) := by
  induction m generalizing c with
  | nil => simp [scalar, messagePoly]
  | cons b m ih =>
    rw [scalar, ih, map_add, map_mul, mk_reflectedPoly_crcStep, ← map_mul, ← map_add, messagePoly_cons, List.length_cons]
    refine congrArg (AdjoinRoot.mk generator) ?_
    ring

/-- Settles O20: both sides are congruent, and the CRC has fewer than 32 bits. -/
theorem scalarIsPolynomialRemainder : Obligations.ScalarIsPolynomialRemainder := by
  unfold Obligations.ScalarIsPolynomialRemainder
  intro c m
  have hdegree : (reflectedPoly (scalar c m)).degree < generator.degree := by
    rw [generator_degree, reflectedPoly_eq_bitPoly_reverse]
    exact degree_bitPoly_lt _
  show reflectedPoly (scalar c m) = (reflectedPoly c * X ^ (8 * m.length) + messagePoly m * X ^ 32) %ₘ _
  rw [← generator_eq]
  exact ((modByMonic_eq_self_iff generator_monic).2 hdegree).symm.trans
    (modByMonic_eq_of_dvd_sub generator_monic (AdjoinRoot.mk_eq_mk.1 (mk_reflectedPoly_scalar c m)))

end Sys2Proof.Machine
end

section
/-! PROOFS. The lanes of the multiplier and of the reduction stay apart and in range (42_clmul.md section 3, 45_reduce.md section 2). -/

namespace Sys2Proof.Machine

/-- Settles O25: a sub-lane of the product is the product of the sub-lanes, and every product is below `2 ^ 127`. -/
theorem subLanesAreIndependent : Obligations.SubLanesAreIndependent := by
  unfold Obligations.SubLanesAreIndependent
  intro ha hb a a' b b' j hj hlane hlane'
  rw [lane_vclmul ha hb a b hj, lane_vclmul ha hb a' b' hj, hlane, hlane']
  exact ⟨rfl, getLsbD_clmul64_of_le _ _ (Nat.le_refl 127)⟩

/-- `y` of `R.FOLD64` (rule R171). -/
theorem foldTo96_toNat_lt (v : U128) : (foldTo96 v).toNat < 2 ^ 96 := by
  have hk96 : half .hi (rom 2) = foldConst 96 := by rw [rom_two_eq, foldPair, half_hi_pair]
  have hfirst : foldTo96 v = foldDown 64 v := by rw [foldTo96, clmul, hk96, half_lo_eq_lowBits]; rfl
  rw [hfirst]
  exact foldDown_toNat_lt (by decide) (v.isLt.trans_le (Nat.pow_le_pow_right (by decide) (by decide)))

/-- `t1` of `R.FOLD64`: 64 bits by the 33 of a fold constant. -/
theorem clmul_rom_two_toNat_lt (v : U128) : (clmul .lo .hi v (rom 2)).toNat < 2 ^ 96 :=
  clmul64_toNat_lt (m := 63) (n := 32) (half .lo v).isLt (by decide)

/-- `t2` of `R.FOLD64`: 32 bits by the 33 of a fold constant. -/
theorem clmul_masked_rom_three_toNat_lt (v : U128) : (clmul .lo .lo (v &&& rom 5) (rom 3)).toNat < 2 ^ 64 := by
  rw [clmul, half_lo_and_rom_five]
  exact clmul64_toNat_lt (m := 31) (n := 32) (lowBits_toNat_lt 32 v) (by decide)

theorem extractLsb'_barrett (v : U128) : (barrett v).extractLsb' 0 32 = 0#32 := by
  refine BitVec.eq_of_getLsbD_eq fun k hk => ?_
  rw [BitVec.getLsbD_extractLsb', Nat.zero_add, getLsbD_barrett_of_lt v hk, Bool.and_false, BitVec.getLsbD_zero]

/-- Settles O41: the bounds of the products, and the low bits that cancel. -/
theorem reductionStaysInLowHalf : Obligations.ReductionStaysInLowHalf := by
  unfold Obligations.ReductionStaysInLowHalf
  exact ⟨fun v => ⟨clmul_rom_two_toNat_lt v, foldTo96_toNat_lt v, clmul_masked_rom_three_toNat_lt _, half_hi_foldTo64 v⟩,
    extractLsb'_barrett, by decide +kernel⟩

end Sys2Proof.Machine
end

section
/-! PROOFS. Each operation's next state, written out (40_scalar.md to 46_orchestrator.md): the tests pass, and what follows them is the state. -/

namespace Sys2Proof.Machine

variable {s : State} {k : Result State} {f : Feature}

/-! ### The codes the branches of the sequence put in `OP` (rules R73, R193) -/

theorem code_afterScalar (r : Nat) : (afterScalar r).code = if r > 0 then (0x02 : BitVec 5) else 0x03 := by
  unfold afterScalar; split <;> rfl

theorem code_afterWideBlock (r : Nat) : (afterWideBlock r).code = if r ≥ 256 then (0x09 : BitVec 5) else 0x0A := by
  unfold afterWideBlock; split <;> rfl

theorem code_afterWideLane (r : Nat) : (afterWideLane r).code = if r ≥ 64 then (0x0B : BitVec 5) else 0x0C := by
  unfold afterWideLane; split <;> rfl

theorem code_afterNarrowBlock (r : Nat) : (afterNarrowBlock r).code = if r ≥ 64 then (0x11 : BitVec 5) else 0x12 := by
  unfold afterNarrowBlock; split <;> rfl

theorem code_afterNarrowLane (r : Nat) : (afterNarrowLane r).code = if r ≥ 16 then (0x14 : BitVec 5) else 0x18 := by
  unfold afterNarrowLane; split <;> rfl

theorem code_afterProbe (tier : BitVec 2) (r : Nat) : (afterProbe tier r).code =
    if tier = 0b00#2 then (if r > 0 then (0x02 : BitVec 5) else 0x03)
    else if tier = 0b10#2 then 0x08 else if r ≥ 128 then 0x10 else 0x13 := by
  simp only [afterProbe, apply_ite Instr.code]
  rfl

/-! ### The scalar engine and the probe -/

/-- Settles O12: `PROBE` tests nothing. -/
theorem probeSelectsAndDispatches : Obligations.ProbeSelectsAndDispatches := by
  unfold Obligations.ProbeSelectsAndDispatches
  intro s
  rw [exec_probe, ← code_afterProbe]
  rfl

/-- Settles O17: one byte consumed. -/
theorem sbyteConsumesOneByte : Obligations.SbyteConsumesOneByte := by
  unfold Obligations.SbyteConsumesOneByte
  intro s htier hrem hlen
  rw [exec_sbyte htier hrem hlen, ← code_afterScalar]
  rfl

/-! ### The multiplier's commands -/

/-- Settles O23: the platform has the multiply, and the halves are parts of the operands. -/
theorem narrowMultiplierCommands : Obligations.NarrowMultiplierCommands := by
  unfold Obligations.NarrowMultiplierCommands
  intro s h
  have hcommand (ha hb : Half) : clmulCommand ha hb s = .next (s.takeMulWord.setDst128 (clmul ha hb s.mul.a128 s.mul.b128)) :=
    clmulCommand_eq_next.2 ⟨h, rfl⟩
  exact ⟨hcommand .lo .lo, hcommand .hi .lo, hcommand .lo .hi, hcommand .hi .hi⟩

/-- A half of a sub-lane is a part of the operand. -/
theorem half_lo_lane (v : U512) (j : Nat) : half .lo (lane v j) = v.extractLsb' (128 * j) 64 := by
  refine BitVec.eq_of_getLsbD_eq fun k hk => ?_
  have hin : k < 128 := by omega
  simp [half, lane, hk, hin]

theorem half_hi_lane (v : U512) (j : Nat) : half .hi (lane v j) = v.extractLsb' (128 * j + 64) 64 := by
  refine BitVec.eq_of_getLsbD_eq fun k hk => ?_
  have hin : 64 + k < 128 := by omega
  simp [half, lane, hk, hin, Nat.add_assoc]

/-- Settles O24: each sub-lane of the product is the product of the halves of the sub-lanes. -/
theorem wideMultiplierCommands : Obligations.WideMultiplierCommands := by
  unfold Obligations.WideMultiplierCommands
  intro s hw hv
  have hcommand (ha hb : Half) : vclmulCommand ha hb s = .next (s.takeMulWord.setDst512 (vclmul ha hb s.mul.a512 s.mul.b512)) :=
    vclmulCommand_eq_next.2 ⟨⟨hw, hv⟩, rfl⟩
  have hlane (ha hb : Half) (j : Nat) (hj : j < 4) : (vclmul ha hb s.mul.a512 s.mul.b512).extractLsb' (128 * j) 128 =
      clmul64 (half ha (lane s.mul.a512 j)) (half hb (lane s.mul.b512 j)) := lane_vclmul ha hb _ _ hj
  simp only [← half_lo_lane, ← half_hi_lane]
  exact ⟨⟨_, hcommand .lo .lo, hlane .lo .lo⟩, ⟨_, hcommand .hi .lo, hlane .hi .lo⟩, ⟨_, hcommand .lo .hi, hlane .lo .hi⟩,
    ⟨_, hcommand .hi .hi, hlane .hi .hi⟩⟩

/-! ### The wide tier -/

/-- The tests every vector operation begins with. -/
theorem vectorTests_of (htier : s.tier ≠ 0b11#2) (htier0 : s.tier ≠ 0b00#2) (hfeat : hasFeature s.straps.platform f = true) :
    needVectorTier s (needFeature s f k) = k := by
  rw [needVectorTier_of htier htier0, needFeature_of hfeat]

theorem needX0_of {v : U128} (g : U128 → Result State) (h : s.x.r0 = .valid v) : needX0 s g = g v := by rw [needX0, h]; rfl

theorem needZ0_of {v : U512} (g : U512 → Result State) (h : s.z.r0 = .valid v) : needZ0 s g = g v := by rw [needZ0, h]; rfl

/-- Settles O30: no accumulator is read, and four lanes are there to load. -/
theorem wInitLoadsFourLanes : Obligations.WInitLoadsFourLanes := by
  unfold Obligations.WInitLoadsFourLanes
  intro s htier htier0 hfeat hrem hlen
  show execWInit s = _
  rw [execWInit, vectorTests_of htier htier0 hfeat, needBytes_of hrem hlen, ← code_afterWideBlock]
  rfl

/-- Settles O31: the four accumulators are valid, and four lanes are there to fold in. -/
theorem wFold4FoldsEachAccumulator : Obligations.WFold4FoldsEachAccumulator := by
  unfold Obligations.WFold4FoldsEachAccumulator
  intro s z0 z1 z2 z3 htier htier0 hfeat hrem hlen hz
  show execWFold4 s = _
  rw [execWFold4, vectorTests_of htier htier0 hfeat, needBytes_of hrem hlen, needZ_of _ hz, ← code_afterWideBlock]
  rfl

/-- Settles O32: no byte is read, and only `Z[0]` is written. -/
theorem wCollapseFoldsIntoZ0 : Obligations.WCollapseFoldsIntoZ0 := by
  unfold Obligations.WCollapseFoldsIntoZ0
  intro s z0 z1 z2 z3 htier htier0 hfeat hz
  show execWCollapse s = _
  rw [execWCollapse, vectorTests_of htier htier0 hfeat, needZ_of _ hz, ← code_afterWideLane, State.writeZ0, hz]
  rfl

/-- Settles O33: one accumulator is read, and one lane. -/
theorem wFold1FoldsOneLane : Obligations.WFold1FoldsOneLane := by
  unfold Obligations.WFold1FoldsOneLane
  intro s z0 htier htier0 hfeat hrem hlen hz
  show execWFold1 s = _
  rw [execWFold1, vectorTests_of htier htier0 hfeat, needBytes_of hrem hlen, needZ0_of _ hz, ← code_afterWideLane]
  rfl

/-- Settles O34: it needs both features. -/
theorem wHredFoldsSubLanes : Obligations.WHredFoldsSubLanes := by
  unfold Obligations.WHredFoldsSubLanes
  intro s z0 htier htier0 hwide hnarrow hz
  show execWHred s = _
  rw [execWHred, vectorTests_of htier htier0 hwide, needFeature_of hnarrow, needZ0_of _ hz]
  rfl

/-! ### The narrow tier -/

/-- Settles O35: at least 64 bytes are left after it. -/
theorem nInit4LoadsFourLanes : Obligations.NInit4LoadsFourLanes := by
  unfold Obligations.NInit4LoadsFourLanes
  intro s htier htier0 hfeat hrem hlen
  show execNInit4 s = _
  rw [execNInit4, vectorTests_of htier htier0 hfeat, needBytes_of hrem hlen, afterNarrowBlock_of_le (by omega)]
  rfl

/-- Settles O36: the four accumulators are valid, and four lanes are there to fold in. -/
theorem nFold4FoldsEachAccumulator : Obligations.NFold4FoldsEachAccumulator := by
  unfold Obligations.NFold4FoldsEachAccumulator
  intro s x0 x1 x2 x3 htier htier0 hfeat hrem hlen hx
  show execNFold4 s = _
  rw [execNFold4, vectorTests_of htier htier0 hfeat, needBytes_of hrem hlen, needX_of _ hx, ← code_afterNarrowBlock]
  rfl

/-- Settles O37: no byte is read, and only `X[0]` is written. -/
theorem nCollapseFoldsIntoX0 : Obligations.NCollapseFoldsIntoX0 := by
  unfold Obligations.NCollapseFoldsIntoX0
  intro s x0 x1 x2 x3 htier htier0 hfeat hx
  show execNCollapse s = _
  rw [execNCollapse, vectorTests_of htier htier0 hfeat, needX_of _ hx, ← code_afterNarrowLane, State.writeX0, hx]
  rfl

/-- Settles O38: no accumulator is read, and one lane is there to load. -/
theorem nInit1LoadsOneLane : Obligations.NInit1LoadsOneLane := by
  unfold Obligations.NInit1LoadsOneLane
  intro s htier htier0 hfeat hrem hlen
  show execNInit1 s = _
  rw [execNInit1, vectorTests_of htier htier0 hfeat, needBytes_of hrem hlen, ← code_afterNarrowLane]
  rfl

/-- Settles O39: one accumulator is read, and one lane. -/
theorem nFold1FoldsOneLane : Obligations.NFold1FoldsOneLane := by
  unfold Obligations.NFold1FoldsOneLane
  intro s x0 htier htier0 hfeat hrem hlen hx
  show execNFold1 s = _
  rw [execNFold1, vectorTests_of htier htier0 hfeat, needBytes_of hrem hlen, needX0_of _ hx, ← code_afterNarrowLane]
  rfl

/-! ### The reduction -/

/-- Settles O40: the intermediate values are those of `foldTo64` and of `barrett`. -/
theorem reductionOperationsComplete : Obligations.ReductionOperationsComplete := by
  unfold Obligations.ReductionOperationsComplete
  intro s v htier htier0 hfeat hx
  constructor
  · rintro t1 y t2 rfl rfl rfl
    exact exec_rFold64 htier htier0 hfeat hx
  · rintro t1 t2 rfl rfl
    rw [exec_rBarrett htier htier0 hfeat hx, ← code_afterScalar]
    rfl

/-! ### The command's two ends and the reset -/

/-- In `IDLE` the host's command and its bytes are taken as they are presented. -/
theorem State.present_of_idle (hop : s.op = Instr.code .update) (crcIn : U32) (data : List U8) (hwcap : U32) :
    s.present crcIn data hwcap = { s with mem := Memory.ofBytes 0 data, host := some ⟨crcIn, data.length, hwcap⟩ } := if_pos hop

/-- Settles O43: the state the command is accepted in. -/
theorem updateAcceptsTheCommand : Obligations.UpdateAcceptsTheCommand := by
  unfold Obligations.UpdateAcceptsTheCommand
  intro s c hop hhost hfits
  exact ⟨s.accept c, exec_update_of_fits hop hhost hfits, rfl, rfl, rfl, rfl, rfl, rfl, rfl, rfl, rfl, rfl, rfl, fun _ => rfl⟩

/-- Settles O44: `UPDATE` tests `OP` first, and so does the host's presenting. -/
theorem updateNeedsIdleAndACommand : Obligations.UpdateNeedsIdleAndACommand := by
  unfold Obligations.UpdateNeedsIdleAndACommand
  refine ⟨fun s hop hhost => ⟨exec_update_idle hop hhost, fun hport => ?_⟩, fun s crcIn data hwcap hop => ⟨if_neg hop, if_neg hop⟩,
    fun s crcIn data hwcap hop => ?_⟩
  · rw [step_of_none hport, runOperation_idle hop hhost]
  · rw [State.present_of_idle hop]
    exact ⟨rfl, Memory.bytes_ofBytes 0 data⟩

/-- Settles O45: the state `DONE` delivers in. -/
theorem doneDeliversTheResult : Obligations.DoneDeliversTheResult := by
  unfold Obligations.DoneDeliversTheResult
  intro s htier hrem
  exact ⟨s.delivered, exec_done_of_rem_zero htier hrem, rfl, rfl, rfl, rfl, rfl, rfl, rfl, rfl, fun _ => rfl⟩

/-- Settles O49: the reset state is a literal. -/
theorem resetIsIdleAndUnwritten : Obligations.ResetIsIdleAndUnwritten := by
  unfold Obligations.ResetIsIdleAndUnwritten
  exact ⟨rfl, rfl, rfl⟩

/-- Settles O50: the reset leaves `IDLE`, where a command can be presented. -/
theorem platformResetAbandonsTheCommand : Obligations.PlatformResetAbandonsTheCommand := by
  unfold Obligations.PlatformResetAbandonsTheCommand
  refine fun s => ⟨rfl, rfl, rfl, rfl, fun crcIn data hwcap hfits htruth => ?_⟩
  have hidle : s.platformReset.op = Instr.code .update := rfl
  rw [State.present_of_idle hidle]
  exact ⟨hidle, rfl, rfl, hfits, htruth⟩

/-- Settles O51: no byte is listed, the port is empty, no command is presented, and in `IDLE` nothing is asked. -/
theorem resetMeetsInvariant : Obligations.ResetMeetsInvariant := by
  unfold Obligations.ResetMeetsInvariant
  exact ⟨State.reset_mem_wf, rfl, rfl, rfl⟩

end Sys2Proof.Machine
end
